-- ==== Sys2Proof/Word.lean ====
section
/-! DEFINITION. The word types of the core and its fixed sizes (spec/00_scope.md R4, R6, R7). -/

namespace Sys2Proof

/-- A byte: 8 bits, unsigned (R6). -/
abbrev Byte := BitVec 8

/-- A 16-bit value: an instruction word, PC, I, a return address (R4). -/
abbrev Word := BitVec 16

/-- A 4-bit field of an instruction word: a register number X or Y, a row count N (R7). -/
abbrev Nibble := BitVec 4

/-- The number of a general register, 0 to 15 (R7, R11). -/
abbrev Reg := BitVec 4

/-- A 12-bit immediate NNN (R7). -/
abbrev Imm12 := BitVec 12

/-- The 16 key-down booleans (R23). -/
abbrev KeyLatch := Vector Bool 16

/-- One display row, 64 pixels; column 0 is the most significant bit (R21, log 32). -/
abbrev DispRow := BitVec 64

/-- The number of VF, the flag register (R13). -/
abbrev regF : Reg := 0xF#4

/-- The number of V0, which BNNN adds to its target (R11). -/
abbrev reg0 : Reg := 0x0#4

/-- MEM has 4096 bytes (R4). -/
abbrev memSize : Nat := 4096

/-- The font table has 80 bytes, at 0x000 to 0x04F (R4). -/
abbrev fontSize : Nat := 80

/-- Programs are loaded at 0x200 (R4). -/
abbrev programBase : Nat := 0x200

/-- The longest program image: 4096 - 512 bytes (R202). -/
abbrev maxProgram : Nat := 3584

end Sys2Proof
end

