-- ==== Sys2Proof/Syntax.lean ====
section
/-! DEFINITION. The 35 instructions, one constructor per row of spec/opcode_table.json
(spec/30_encoding.md R66), in the table's order. A field the machine ignores is kept, so that
decoding drops no bit of a word. -/

namespace Sys2Proof

inductive Instr where
  /-- 00E0 CLS -/
  | cls
  /-- 00EE RET -/
  | ret
  /-- 0NNN SYS NNN: every family-0 word but the two above; NNN is ignored -/
  | sys (nnn : Imm12)
  /-- 1NNN JP NNN -/
  | jp (nnn : Imm12)
  /-- 2NNN CALL NNN -/
  | call (nnn : Imm12)
  /-- 3XNN SE Vx, NN -/
  | seImm (x : Reg) (nn : Byte)
  /-- 4XNN SNE Vx, NN -/
  | sneImm (x : Reg) (nn : Byte)
  /-- 5XYn SE Vx, Vy; the low nibble n is not examined (R65) -/
  | seReg (x y : Reg) (n : Nibble)
  /-- 6XNN LD Vx, NN -/
  | ldImm (x : Reg) (nn : Byte)
  /-- 7XNN ADD Vx, NN -/
  | addImm (x : Reg) (nn : Byte)
  /-- 8XY0 LD Vx, Vy -/
  | ldReg (x y : Reg)
  /-- 8XY1 OR Vx, Vy -/
  | or (x y : Reg)
  /-- 8XY2 AND Vx, Vy -/
  | and (x y : Reg)
  /-- 8XY3 XOR Vx, Vy -/
  | xor (x y : Reg)
  /-- 8XY4 ADD Vx, Vy -/
  | addReg (x y : Reg)
  /-- 8XY5 SUB Vx, Vy -/
  | sub (x y : Reg)
  /-- 8XY6 SHR Vx; the Y field is ignored -/
  | shr (x y : Reg)
  /-- 8XY7 SUBN Vx, Vy -/
  | subn (x y : Reg)
  /-- 8XYE SHL Vx; the Y field is ignored -/
  | shl (x y : Reg)
  /-- 9XYn SNE Vx, Vy; the low nibble n is not examined (R65) -/
  | sneReg (x y : Reg) (n : Nibble)
  /-- ANNN LD I, NNN -/
  | ldI (nnn : Imm12)
  /-- BNNN JP V0, NNN -/
  | jpV0 (nnn : Imm12)
  /-- CXNN RND Vx, NN -/
  | rnd (x : Reg) (nn : Byte)
  /-- DXYN DRW Vx, Vy, N -/
  | drw (x y : Reg) (n : Nibble)
  /-- EX9E SKP Vx -/
  | skp (x : Reg)
  /-- EXA1 SKNP Vx -/
  | sknp (x : Reg)
  /-- FX07 LD Vx, DT -/
  | ldVxDt (x : Reg)
  /-- FX0A LD Vx, K -/
  | ldVxK (x : Reg)
  /-- FX15 LD DT, Vx -/
  | ldDtVx (x : Reg)
  /-- FX18 LD ST, Vx -/
  | ldStVx (x : Reg)
  /-- FX1E ADD I, Vx -/
  | addI (x : Reg)
  /-- FX29 LD F, Vx -/
  | ldF (x : Reg)
  /-- FX33 LD B, Vx -/
  | ldB (x : Reg)
  /-- FX55 LD [I], Vx -/
  | store (x : Reg)
  /-- FX65 LD Vx, [I] -/
  | load (x : Reg)
deriving DecidableEq, Repr

end Sys2Proof
end

