-- ==== Sys2Proof/Decode.lean ====
section
/-! DEFINITION. Decoding and encoding (spec/30_encoding.md R60 to R68), both written from the spec's
encodings; and the opcode map R66 as data, beside the two-level dispatch of R63 and R64. -/

namespace Sys2Proof

/-! ### Fields (R62) -/

/-- `op = w[15:12]`. -/
def opOf (w : Word) : Nibble := w.extractLsb' 12 4

/-- `X = w[11:8]`. -/
def xOf (w : Word) : Reg := w.extractLsb' 8 4

/-- `Y = w[7:4]`. -/
def yOf (w : Word) : Reg := w.extractLsb' 4 4

/-- `N = w[3:0]`. -/
def nOf (w : Word) : Nibble := w.extractLsb' 0 4

/-- `NN = w[7:0]`. -/
def nnOf (w : Word) : Byte := w.extractLsb' 0 8

/-- `NNN = w[11:0]`. -/
def nnnOf (w : Word) : Imm12 := w.extractLsb' 0 12

/-! ### The decoder (R63 to R67) -/

/-- Why bytes are no instruction, by name. -/
inductive DecodeReject where
  /-- fewer than two bytes were given (R60: every instruction is 16 bits) -/
  | truncated
  /-- 8XYn with n in 8, 9, A, B, C, D, F (R67 (a)) -/
  | noFamily8Case (w : Word)
  /-- EXkk with kk not 9E or A1 (R67 (b)) -/
  | noFamilyECase (w : Word)
  /-- FXkk with kk not one of the nine low bytes (R67 (c)) -/
  | noFamilyFCase (w : Word)
deriving DecidableEq, Repr

/-- Family 0 compares the whole word (R64). -/
def decodeFamily0 (w : Word) : Instr :=
  if w = 0x00E0#16 then .cls else if w = 0x00EE#16 then .ret else .sys (nnnOf w)

/-- Family 8 sub-dispatches on the low nibble (R64). -/
def decodeFamily8 (w : Word) : Except DecodeReject Instr :=
  match (nOf w).toNat with
  | 0x0 => .ok (.ldReg (xOf w) (yOf w))
  | 0x1 => .ok (.or (xOf w) (yOf w))
  | 0x2 => .ok (.and (xOf w) (yOf w))
  | 0x3 => .ok (.xor (xOf w) (yOf w))
  | 0x4 => .ok (.addReg (xOf w) (yOf w))
  | 0x5 => .ok (.sub (xOf w) (yOf w))
  | 0x6 => .ok (.shr (xOf w) (yOf w))
  | 0x7 => .ok (.subn (xOf w) (yOf w))
  | 0xE => .ok (.shl (xOf w) (yOf w))
  | _ => .error (.noFamily8Case w)

/-- Family E compares the whole low byte (R64, D10). -/
def decodeFamilyE (w : Word) : Except DecodeReject Instr :=
  match (nnOf w).toNat with
  | 0x9E => .ok (.skp (xOf w))
  | 0xA1 => .ok (.sknp (xOf w))
  | _ => .error (.noFamilyECase w)

/-- Family F sub-dispatches on the low byte (R64). -/
def decodeFamilyF (w : Word) : Except DecodeReject Instr :=
  match (nnOf w).toNat with
  | 0x07 => .ok (.ldVxDt (xOf w))
  | 0x0A => .ok (.ldVxK (xOf w))
  | 0x15 => .ok (.ldDtVx (xOf w))
  | 0x18 => .ok (.ldStVx (xOf w))
  | 0x1E => .ok (.addI (xOf w))
  | 0x29 => .ok (.ldF (xOf w))
  | 0x33 => .ok (.ldB (xOf w))
  | 0x55 => .ok (.store (xOf w))
  | 0x65 => .ok (.load (xOf w))
  | _ => .error (.noFamilyFCase w)

/-- The decoder, level 1: the top nibble selects the family (R63). The last arm is family F, the one
nibble the fifteen arms before it leave. -/
def decodeWord (w : Word) : Except DecodeReject Instr :=
  match (opOf w).toNat with
  | 0x0 => .ok (decodeFamily0 w)
  | 0x1 => .ok (.jp (nnnOf w))
  | 0x2 => .ok (.call (nnnOf w))
  | 0x3 => .ok (.seImm (xOf w) (nnOf w))
  | 0x4 => .ok (.sneImm (xOf w) (nnOf w))
  | 0x5 => .ok (.seReg (xOf w) (yOf w) (nOf w))
  | 0x6 => .ok (.ldImm (xOf w) (nnOf w))
  | 0x7 => .ok (.addImm (xOf w) (nnOf w))
  | 0x8 => decodeFamily8 w
  | 0x9 => .ok (.sneReg (xOf w) (yOf w) (nOf w))
  | 0xA => .ok (.ldI (nnnOf w))
  | 0xB => .ok (.jpV0 (nnnOf w))
  | 0xC => .ok (.rnd (xOf w) (nnOf w))
  | 0xD => .ok (.drw (xOf w) (yOf w) (nOf w))
  | 0xE => decodeFamilyE w
  | _ => decodeFamilyF w

/-- The word of two bytes, the one at the lower address first: it is the high byte (R44). -/
def wordOfBytes (hi lo : Byte) : Word := hi ++ lo

/-- The high byte of a word, the one stored at the lower address (R44). -/
def hiByte (w : Word) : Byte := w.extractLsb' 8 8

/-- The low byte of a word (R44). -/
def loByte (w : Word) : Byte := w.extractLsb' 0 8

/-- Decoding from bytes in address order: the instruction and the bytes after it. Total on any bytes. -/
def decode : List Byte → Except DecodeReject (Instr × List Byte)
  | hi :: lo :: rest =>
    match decodeWord (wordOfBytes hi lo) with
    | .ok i => .ok (i, rest)
    | .error r => .error r
  | _ => .error .truncated

/-- What the decoder reads from an instruction whose bits are `w`, numbered as spec/opcode_table.json numbers
them. The instruction is one 16-bit word, laid out with its high byte at the lower address (R44). -/
def decodeTableWord (nbits w : Nat) : Option Instr :=
  if nbits ≤ 16 then
    let word : Word := BitVec.ofNat 16 (w % 2 ^ nbits)
    match decode [hiByte word, loByte word] with
    | .ok (i, _) => some i
    | .error _ => none
  else none

/-! ### The encoder (R61, R66) -/

/-- Format ADDR: op, NNN. -/
def encAddr (op : Nibble) (nnn : Imm12) : Word := op ++ nnn

/-- Format REGIMM: op, X, NN; format REG has a fixed low byte for NN. -/
def encRegImm (op : Nibble) (x : Reg) (nn : Byte) : Word := op ++ x ++ nn

/-- Format REGREG: op, X, Y, a fixed low nibble or N. -/
def encRegReg (op : Nibble) (x y : Reg) (n : Nibble) : Word := op ++ x ++ y ++ n

/-- The word of an instruction (R66). -/
def encode : Instr → Word
  | .cls => 0x00E0#16
  | .ret => 0x00EE#16
  | .sys nnn => encAddr 0x0#4 nnn
  | .jp nnn => encAddr 0x1#4 nnn
  | .call nnn => encAddr 0x2#4 nnn
  | .seImm x nn => encRegImm 0x3#4 x nn
  | .sneImm x nn => encRegImm 0x4#4 x nn
  | .seReg x y n => encRegReg 0x5#4 x y n
  | .ldImm x nn => encRegImm 0x6#4 x nn
  | .addImm x nn => encRegImm 0x7#4 x nn
  | .ldReg x y => encRegReg 0x8#4 x y 0x0#4
  | .or x y => encRegReg 0x8#4 x y 0x1#4
  | .and x y => encRegReg 0x8#4 x y 0x2#4
  | .xor x y => encRegReg 0x8#4 x y 0x3#4
  | .addReg x y => encRegReg 0x8#4 x y 0x4#4
  | .sub x y => encRegReg 0x8#4 x y 0x5#4
  | .shr x y => encRegReg 0x8#4 x y 0x6#4
  | .subn x y => encRegReg 0x8#4 x y 0x7#4
  | .shl x y => encRegReg 0x8#4 x y 0xE#4
  | .sneReg x y n => encRegReg 0x9#4 x y n
  | .ldI nnn => encAddr 0xA#4 nnn
  | .jpV0 nnn => encAddr 0xB#4 nnn
  | .rnd x nn => encRegImm 0xC#4 x nn
  | .drw x y n => encRegReg 0xD#4 x y n
  | .skp x => encRegImm 0xE#4 x 0x9E#8
  | .sknp x => encRegImm 0xE#4 x 0xA1#8
  | .ldVxDt x => encRegImm 0xF#4 x 0x07#8
  | .ldVxK x => encRegImm 0xF#4 x 0x0A#8
  | .ldDtVx x => encRegImm 0xF#4 x 0x15#8
  | .ldStVx x => encRegImm 0xF#4 x 0x18#8
  | .addI x => encRegImm 0xF#4 x 0x1E#8
  | .ldF x => encRegImm 0xF#4 x 0x29#8
  | .ldB x => encRegImm 0xF#4 x 0x33#8
  | .store x => encRegImm 0xF#4 x 0x55#8
  | .load x => encRegImm 0xF#4 x 0x65#8

/-! ### The opcode map as data (R66) -/

/-- One row of R66: a word is the instruction when `w AND mask = pattern`; `build` reads its operands. -/
structure OpcodeRow where
  mask : Word
  pattern : Word
  build : Word → Instr

/-- Rows 1 to 10 of R66. -/
def opcodeRowsA : List OpcodeRow :=
  [⟨0xFFFF, 0x00E0, fun _ => .cls⟩,
   ⟨0xFFFF, 0x00EE, fun _ => .ret⟩,
   ⟨0xF000, 0x0000, fun w => .sys (nnnOf w)⟩,
   ⟨0xF000, 0x1000, fun w => .jp (nnnOf w)⟩,
   ⟨0xF000, 0x2000, fun w => .call (nnnOf w)⟩,
   ⟨0xF000, 0x3000, fun w => .seImm (xOf w) (nnOf w)⟩,
   ⟨0xF000, 0x4000, fun w => .sneImm (xOf w) (nnOf w)⟩,
   ⟨0xF000, 0x5000, fun w => .seReg (xOf w) (yOf w) (nOf w)⟩,
   ⟨0xF000, 0x6000, fun w => .ldImm (xOf w) (nnOf w)⟩,
   ⟨0xF000, 0x7000, fun w => .addImm (xOf w) (nnOf w)⟩]

/-- Rows 11 to 19 of R66. -/
def opcodeRowsB : List OpcodeRow :=
  [⟨0xF00F, 0x8000, fun w => .ldReg (xOf w) (yOf w)⟩,
   ⟨0xF00F, 0x8001, fun w => .or (xOf w) (yOf w)⟩,
   ⟨0xF00F, 0x8002, fun w => .and (xOf w) (yOf w)⟩,
   ⟨0xF00F, 0x8003, fun w => .xor (xOf w) (yOf w)⟩,
   ⟨0xF00F, 0x8004, fun w => .addReg (xOf w) (yOf w)⟩,
   ⟨0xF00F, 0x8005, fun w => .sub (xOf w) (yOf w)⟩,
   ⟨0xF00F, 0x8006, fun w => .shr (xOf w) (yOf w)⟩,
   ⟨0xF00F, 0x8007, fun w => .subn (xOf w) (yOf w)⟩,
   ⟨0xF00F, 0x800E, fun w => .shl (xOf w) (yOf w)⟩]

/-- Rows 20 to 26 of R66. -/
def opcodeRowsC : List OpcodeRow :=
  [⟨0xF000, 0x9000, fun w => .sneReg (xOf w) (yOf w) (nOf w)⟩,
   ⟨0xF000, 0xA000, fun w => .ldI (nnnOf w)⟩,
   ⟨0xF000, 0xB000, fun w => .jpV0 (nnnOf w)⟩,
   ⟨0xF000, 0xC000, fun w => .rnd (xOf w) (nnOf w)⟩,
   ⟨0xF000, 0xD000, fun w => .drw (xOf w) (yOf w) (nOf w)⟩,
   ⟨0xF0FF, 0xE09E, fun w => .skp (xOf w)⟩,
   ⟨0xF0FF, 0xE0A1, fun w => .sknp (xOf w)⟩]

/-- Rows 27 to 35 of R66. -/
def opcodeRowsD : List OpcodeRow :=
  [⟨0xF0FF, 0xF007, fun w => .ldVxDt (xOf w)⟩,
   ⟨0xF0FF, 0xF00A, fun w => .ldVxK (xOf w)⟩,
   ⟨0xF0FF, 0xF015, fun w => .ldDtVx (xOf w)⟩,
   ⟨0xF0FF, 0xF018, fun w => .ldStVx (xOf w)⟩,
   ⟨0xF0FF, 0xF01E, fun w => .addI (xOf w)⟩,
   ⟨0xF0FF, 0xF029, fun w => .ldF (xOf w)⟩,
   ⟨0xF0FF, 0xF033, fun w => .ldB (xOf w)⟩,
   ⟨0xF0FF, 0xF055, fun w => .store (xOf w)⟩,
   ⟨0xF0FF, 0xF065, fun w => .load (xOf w)⟩]

/-- The whole map, in the order its rows are tried. -/
def opcodeRows : List OpcodeRow := opcodeRowsA ++ opcodeRowsB ++ opcodeRowsC ++ opcodeRowsD

/-- Decoding by the map alone: the first row that matches, "tried top to bottom" (R66). -/
def decodeByRows (w : Word) : Option Instr :=
  (opcodeRows.find? fun r => w &&& r.mask == r.pattern).map fun r => r.build w

end Sys2Proof
end

