-- ==== Sys2Proof/Config.lean ====
section
/-! DEFINITION. The parameters of the model (spec/00_scope.md R5) and its free values. -/

namespace Sys2Proof

/-- The two moduli FX1E may have (R5, R141). -/
inductive AddIModulus where
  | full      -- 65536
  | memory    -- 4096
deriving DecidableEq, Repr, Inhabited

/-- The modulus as a number. -/
def AddIModulus.toNat : AddIModulus → Nat
  | .full => 65536
  | .memory => 4096

/-- The configuration record of R5. It is fixed for a run and no instruction reads it as data or changes it
(R26); the state carries it so that every statement holds for every value of it (log 5). -/
structure Config where
  /-- `DIVISOR`: instructions per timer tick, at least 1. -/
  divisor : Nat
  /-- `LOADSTORE_INCREMENTS_I`: whether FX55 and FX65 add X + 1 to I. -/
  loadStoreIncrementsI : Bool
  /-- `ADD_I_MODULUS`: the modulus of FX1E. -/
  addIModulus : AddIModulus
  /-- `FONT`: the glyph table written to 0x000 to 0x04F at init. -/
  font : Vector Byte 80
deriving DecidableEq, Repr, Inhabited

/-- The default `FONT`, the table of R31: five bytes per hexadecimal digit.
PRESUMED (the spec's general knowledge G4; log 6). -/
def Config.defaultFont : Vector Byte 80 :=
  #v[0xF0, 0x90, 0x90, 0x90, 0xF0,  0x20, 0x60, 0x20, 0x20, 0x70,
     0xF0, 0x10, 0xF0, 0x80, 0xF0,  0xF0, 0x10, 0xF0, 0x10, 0xF0,
     0x90, 0x90, 0xF0, 0x10, 0x10,  0xF0, 0x80, 0xF0, 0x10, 0xF0,
     0xF0, 0x80, 0xF0, 0x90, 0xF0,  0xF0, 0x10, 0x20, 0x40, 0x40,
     0xF0, 0x90, 0xF0, 0x90, 0xF0,  0xF0, 0x90, 0xF0, 0x10, 0xF0,
     0xF0, 0x90, 0xF0, 0x90, 0x90,  0xE0, 0x90, 0xE0, 0x90, 0xE0,
     0xF0, 0x80, 0x80, 0x80, 0xF0,  0xE0, 0x90, 0x90, 0x90, 0xE0,
     0xF0, 0x80, 0xF0, 0x80, 0xF0,  0xF0, 0x80, 0xF0, 0x80, 0x80]

/-- The defaults of R5, "for runners and tests". DESIGN CHOICE (the spec's D16, D17, D19; log 5). -/
def Config.defaults : Config where
  divisor := 17
  loadStoreIncrementsI := false
  addIModulus := .full
  font := Config.defaultFont

/-- The free byte CXNN draws when the environment's bytes are used up: "any value 0..255, chosen by the
environment" (R133, U8). Nothing constrains it; it is applied to the state's counter of free values (log 3). -/
opaque Config.freeByte : Nat → Byte

end Sys2Proof
end

