-- ==== Sys2Proof/Machine/State.lean ====
section
/-! DEFINITION. The machine's state as plain data (spec/10_state.md R10 to R31), its value after reset
(R29, spec/70_reset_and_hazards.md R200), and the reasons a step can stop. -/

namespace Sys2Proof.Machine

/-- The fatal conditions (spec/60_exceptions.md R170 to R173): what `raise <Cause>` answers. They are raised by
fetch, decode and the meanings; `step` then sets HALT to `halted cause` (R90, R174). Stopping is safe: nothing is
claimed of the state afterwards. -/
inductive Fault where
  /-- code 1: the fetched word matches no defined case. Raised by the instruction step on a word the decoder
  rejects. Safe: the spec's own fatal condition (R171). -/
  | decodeFailure (w : Word)
  /-- code 2: an access to MEM at an address above 4095, the first in access order. Raised by the fetch, DXYN,
  FX33, FX55 and FX65. Safe: the spec's own fatal condition (R172). -/
  | memoryOutOfRange (a : Nat)
  /-- code 3: a key number above 15. Raised by EX9E and EXA1. Safe: the spec's choice for a behaviour its source
  calls undefined (R173, D11; log 19). -/
  | keyIndexOutOfRange (v : Byte)
deriving DecidableEq, Repr, Inhabited

/-- What the model gives no meaning. -/
inductive Refusal where
  /-- An instruction without a meaning yet; raised only in an arm of `exec`. Safe. There is none. -/
  | notModelled (mnemonic : String)
  /-- A reload with a program of more than 3584 bytes; raised by the host control of `step`. Safe: "a longer program
  no meaning (the load is refused)" (R202, U17; log 11). -/
  | programTooLong (length : Nat)
deriving DecidableEq, Repr

/-- HALT (R25). -/
inductive RunStatus where
  /-- the scheduler performs iterations -/
  | running
  /-- a fatal condition occurred; absorbing but for a host reset -/
  | halted (cause : Fault)
  /-- the host gave the stop signal; absorbing but for a host reset -/
  | stopped
deriving DecidableEq, Repr, Inhabited

/-- `host_ctl`: the host's signal, sampled between iterations (R186, R191). -/
inductive HostSignal where
  | none
  | quit
  | pause
  | reset
  /-- carries `program_in`, the newly supplied image -/
  | reload (program : List Byte)
deriving DecidableEq, Repr, Inhabited

/-- The output events of an iteration (R83, R181, R186); they carry no data. -/
inductive OutEvent where
  | audioCue
  | render
deriving DecidableEq, Repr, Inhabited

/-- MEM as the bytes that differ from their reset contents, by rising address (log 10). -/
abbrev Memory := List Host.Cell

/-- The machine. The first thirteen fields are the components of R10, in its order; `cfg` is the configuration
record (R5); the rest are the step's inputs and outputs (R28, R186). -/
structure State where
  /-- V0 to VF (R11) -/
  v : Vector Byte 16
  /-- the index register I (R14) -/
  i : Word
  /-- the program counter (R15) -/
  pc : Word
  /-- the stack pointer: the number of return records held (R17) -/
  sp : Fin 16
  /-- the call stack (R18) -/
  stack : Vector Word 16
  /-- the delay timer (R19) -/
  dt : Byte
  /-- the sound timer (R19) -/
  st : Byte
  /-- MEM (R20) -/
  mem : Memory
  /-- DISP by rows, row 0 first (R21) -/
  disp : Vector DispRow 32
  /-- DIRTY (R22) -/
  dirty : Bool
  /-- KEYS (R23) -/
  keys : KeyLatch
  /-- ICOUNT (R24) -/
  icount : Nat
  /-- HALT (R25) -/
  halt : RunStatus
  /-- the parameters of R5; nothing changes them (log 5) -/
  cfg : Config
  /-- the program image last loaded, which a host reset copies again (R203; log 9) -/
  image : List Byte
  /-- `keys_in` of the coming iterations; none left means no transition pending (R81; log 2) -/
  keysIn : List KeyLatch
  /-- `host_ctl` of the coming steps; none left means no signal (R191; log 4) -/
  hostCtl : List HostSignal
  /-- `rand_in` of the coming draws; none left means a free byte (R133; log 3) -/
  randIn : List Byte
  /-- the counter of free bytes drawn (log 3) -/
  freeCtr : Nat
  /-- the events the last step emitted (R83, R181; log 8) -/
  out : List OutEvent
deriving DecidableEq, Repr, Inhabited

/-- The state after init (R29, R200), before a program is loaded. The values the spec does not take from its
source are its decision D18 (log 7); those of the model's own fields are in logs 2 to 5, 8 and 9. -/
def State.reset : State where
  v := Vector.replicate 16 0
  i := 0
  pc := 0x200
  sp := 0
  stack := Vector.replicate 16 0
  dt := 0
  st := 0
  mem := []
  disp := Vector.replicate 32 0
  dirty := false
  keys := Vector.replicate 16 false
  icount := 0
  halt := .running
  cfg := Config.defaults
  image := []
  keysIn := []
  hostCtl := []
  randIn := []
  freeCtr := 0
  out := []

end Sys2Proof.Machine

namespace Sys2Proof

/-- What a fatal condition leaves in every component but HALT: "every state component other than HALT
unspecified" (R174, U13). A free value: nothing constrains it (log 1). -/
opaque Config.afterHalt : Machine.State → Machine.State

end Sys2Proof
end

