-- ==== Sys2Proof/Machine/Ops.lean ====
section
/-! DEFINITION. The named operations over registers, memory, PC, stack and inputs that the meanings share;
the fetch; what a fatal condition does and the way back from it. -/

namespace Sys2Proof.Machine

/-! ### Registers (spec/10_state.md R11 to R17) -/

/-- `V[x]`. -/
def State.getV (s : State) (x : Reg) : Byte := s.v[x.toNat]'(x.isLt)

/-- `V[x] <- b`. -/
def State.setV (x : Reg) (b : Byte) (s : State) : State := { s with v := s.v.set x.toNat b (x.isLt) }

/-- All sixteen registers at once, for FX65. -/
def State.setAllV (v : Vector Byte 16) (s : State) : State := { s with v := v }

/-- `I <- w`. -/
def State.setI (w : Word) (s : State) : State := { s with i := w }

/-- `PC <- w`. -/
def State.setPc (w : Word) (s : State) : State := { s with pc := w }

/-- `PC <- PC + n`, modulo 65536 (R16, D4). -/
def State.advance (n : Word) (s : State) : State := s.setPc (s.pc + n)

/-- `DT <- b`. -/
def State.setDt (b : Byte) (s : State) : State := { s with dt := b }

/-- `ST <- b`. -/
def State.setSt (b : Byte) (s : State) : State := { s with st := b }

/-- DISP becomes `d` and DIRTY is set (R22: "whether or not any pixel actually changed value"). -/
def State.paint (d : Vector DispRow 32) (s : State) : State := { s with disp := d, dirty := true }

/-! ### The call stack (R17, R18) -/

/-- `if SP < 15: STACK[SP] <- PC; SP <- SP + 1` (R103). -/
def State.push (s : State) : State :=
  if h : s.sp.val < 15 then
    { s with stack := s.stack.set s.sp.val s.pc (by omega), sp := ⟨s.sp.val + 1, by omega⟩ }
  else s

/-- The address 00EE goes to and the stack pointer it leaves: `if SP > 0: SP <- SP - 1; PC <- STACK[SP] + 2;
else: PC <- PC + 2` (R101). -/
def State.pop (s : State) : State :=
  if 0 < s.sp.val then
    { s with sp := ⟨s.sp.val - 1, by omega⟩, pc := s.stack[s.sp.val - 1]'(by omega) + 2 }
  else s.advance 2

/-! ### Memory (spec/20_memory.md R40 to R46, R53)

MEM is kept as the bytes that differ from what init left there, by rising address. -/

/-- What an address that is not listed reads as: the reset contents, FONT at 0x000 to 0x04F and 0 elsewhere
(R29, R41). -/
def blankByte (font : Vector Byte 80) (a : Nat) : Byte := if h : a < fontSize then font[a]'h else 0

/-- The entry of an address, if it is listed. -/
def Memory.lookup (a : Nat) : Memory → Option Byte
  | [] => none
  | (b, u) :: m => if a = b then some u else Memory.lookup a m

/-- The byte at an address. -/
def Memory.read (font : Vector Byte 80) (m : Memory) (a : Nat) : Byte :=
  (Memory.lookup a m).getD (blankByte font a)

/-- Put an entry before the first greater address. -/
def Memory.insert (a : Nat) (u : Byte) : Memory → Memory
  | [] => [(a, u)]
  | (b, w) :: m => if a < b then (a, u) :: (b, w) :: m else (b, w) :: Memory.insert a u m

/-- Take the entry of an address out. -/
def Memory.erase (a : Nat) (m : Memory) : Memory := m.filter fun c => c.1 ≠ a

/-- Store a byte, keeping the canonical form: a byte equal to the reset contents is not listed. -/
def Memory.write (font : Vector Byte 80) (a : Nat) (u : Byte) (m : Memory) : Memory :=
  if u = blankByte font a then Memory.erase a m else Memory.insert a u (Memory.erase a m)

/-- Store bytes at rising addresses. -/
def Memory.writeList (font : Vector Byte 80) : Nat → List Byte → Memory → Memory
  | _, [], m => m
  | a, u :: us, m => Memory.writeList font (a + 1) us (Memory.write font a u m)

/-- The canonical memory that reads as `f` at every address of MEM. (Not unfolded by the elaborator: its list has
4096 candidates.) -/
@[irreducible] def Memory.ofFun (font : Vector Byte 80) (f : Nat → Byte) : Memory :=
  (List.range memSize).filterMap fun a => if f a = blankByte font a then none else some (a, f a)

/-- The canonical form: addresses strictly rising, all in MEM, no entry equal to what its address reads as
unlisted. -/
abbrev Memory.wf (font : Vector Byte 80) (m : Memory) : Prop :=
  m.Pairwise (fun c d => c.1 < d.1) ∧ ∀ c ∈ m, c.1 < memSize ∧ c.2 ≠ blankByte font c.1

/-- `MemRead(a, 1)` (R8, R43): the address is a plain natural, never reduced (R53, D31). -/
def State.memRead (s : State) (a : Nat) : Except Fault Byte :=
  if a < memSize then .ok (Memory.read s.cfg.font s.mem a) else .error (.memoryOutOfRange a)

/-- `MemWrite(a, 1, u)` (R8, R43). -/
def State.memWrite (a : Nat) (u : Byte) (s : State) : Except Fault State :=
  if a < memSize then .ok { s with mem := Memory.write s.cfg.font a u s.mem } else .error (.memoryOutOfRange a)

/-- The `n` bytes from address `a` on, read one at a time in ascending order (R45): the first address out of
range is the one reported (R175). -/
def State.loadBytes (s : State) : Nat → Nat → Except Fault (List Byte)
  | _, 0 => .ok []
  | a, n + 1 =>
    match s.memRead a with
    | .error c => .error c
    | .ok u =>
      match s.loadBytes (a + 1) n with
      | .error c => .error c
      | .ok us => .ok (u :: us)

/-- Bytes stored from address `a` on, one at a time in ascending order (R45, R175). -/
def State.storeBytes : Nat → List Byte → State → Except Fault State
  | _, [], s => .ok s
  | a, u :: us, s =>
    match s.memWrite a u with
    | .error c => .error c
    | .ok t => State.storeBytes (a + 1) us t

/-- Fetch (spec/40_execution_cycle.md R84): `MemRead(PC, 2)`, the byte at the lower address the high one (R44).
It changes nothing. -/
def State.fetch (s : State) : Except Fault Word :=
  match s.memRead s.pc.toNat with
  | .error c => .error c
  | .ok hi =>
    match s.memRead (s.pc.toNat + 1) with
    | .error c => .error c
    | .ok lo => .ok (wordOfBytes hi lo)

/-! ### The random input -/

/-- `Rand()` (R8, R133): the environment's next byte, or a free byte when none is supplied (log 3). -/
def State.randByte (s : State) : Byte :=
  match s.randIn with
  | r :: _ => r
  | [] => Config.freeByte s.freeCtr

/-- The draw is used up: every evaluation of `Rand()` is a fresh one (R133). -/
def State.nextRand (s : State) : State :=
  match s.randIn with
  | _ :: rs => { s with randIn := rs }
  | [] => { s with freeCtr := s.freeCtr + 1 }

/-! ### A fatal condition and the way back (spec/60_exceptions.md R174, R176; spec/70_reset_and_hazards.md R203) -/

/-- Taking a fatal condition (R174): HALT becomes `halted cause`, nothing is saved, nothing is counted, nothing is
signalled; every other component of R10 holds a free value within its range. What is no component of R10 (the
parameters, the image, the inputs still to come) is outside the machine and stays (log 1). -/
def State.takeFault (c : Fault) (s : State) : State :=
  let free := Config.afterHalt s
  { s with
    v := free.v, i := free.i, pc := free.pc, sp := free.sp, stack := free.stack, dt := free.dt, st := free.st
    mem := Memory.ofFun s.cfg.font (Memory.read s.cfg.font free.mem)
    disp := free.disp, dirty := free.dirty, keys := free.keys, icount := free.icount % s.cfg.divisor
    halt := .halted c, out := [] }

/-- Program load (R202): the bytes go to 0x200 and on; no other byte changes. -/
def State.loadProgram (p : List Byte) (s : State) : State :=
  { s with mem := Memory.writeList s.cfg.font programBase p s.mem, image := p }

/-- The registers of R200 but MEM at their init values (R203): the font is not loaded again, and bytes a program
stored stay. -/
def State.reinit (s : State) : State :=
  { State.reset with
    mem := s.mem, cfg := s.cfg, image := s.image, keysIn := s.keysIn, hostCtl := s.hostCtl, randIn := s.randIn
    freeCtr := s.freeCtr, out := s.out }

/-- Host reset or reload with image `p` (R203), the only exit from `halted` and `stopped` (R174, R176); an image
that does not fit is refused (R202). -/
def State.reboot (p : List Byte) (s : State) : Host.Outcome State Fault Refusal :=
  if p.length ≤ maxProgram then .next (s.reinit.loadProgram p) else .refused (.programTooLong p.length)

/-- A word stored at `a`, its high byte first (R44); where the two bytes do not fit in MEM, nothing. -/
def State.placeWord (a : Nat) (w : Word) (s : State) : State :=
  if a + 1 < memSize then
    { s with mem := Memory.writeList s.cfg.font a [hiByte w, loByte w] s.mem }
  else s

end Sys2Proof.Machine
end

