-- ==== Sys2Proof/Machine/Operands.lean ====
section
/-! DEFINITION. The operand forms of spec/30_encoding.md R62 and the files 41 to 46: immediates, the data address
I + k, decimal digits, register ranges, sprite rows, key numbers. -/

namespace Sys2Proof.Machine

/-- NNN as an address or an addend: 12 bits, never sign-extended (R62). -/
def immWord (nnn : Imm12) : Word := nnn.setWidth 16

/-- The data address `I + k`, a plain natural (R53, R146). -/
def State.dataAddr (s : State) (k : Nat) : Nat := s.i.toNat + k

/-- The three decimal digits of a byte, hundreds first (R143). -/
def decimalDigits (b : Byte) : List Byte :=
  [BitVec.ofNat 8 (b.toNat / 100), BitVec.ofNat 8 (b.toNat / 10 % 10), BitVec.ofNat 8 (b.toNat % 10)]

/-- How many registers FX55 and FX65 move: V0 to VX inclusive (R144, R145). -/
def rangeCount (x : Reg) : Nat := x.toNat + 1

/-- The bytes of V0 to VX, V0 first (R144). -/
def State.regRange (s : State) (x : Reg) : List Byte := s.v.toList.take (rangeCount x)

/-- The registers after V0, V1, ... take the bytes of a list in order; the rest stay (R145). -/
def State.withRange (s : State) (bs : List Byte) : Vector Byte 16 := s.v.mapIdx fun k old => bs[k]?.getD old

/-- I after FX55 or FX65: unchanged, or advanced by X + 1 modulo 65536 (R144, R145, D17). -/
def State.indexAfterRange (s : State) (x : Reg) : Word :=
  if s.cfg.loadStoreIncrementsI then BitVec.ofNat 16 (s.i.toNat + rangeCount x) else s.i

/-- The glyph address FX29 computes: 5 * Vx, not masked (R142, D28). -/
def glyphAddr (b : Byte) : Word := BitVec.ofNat 16 (5 * b.toNat)

/-- I after FX1E (R141). -/
def State.indexSum (s : State) (b : Byte) : Word :=
  BitVec.ofNat 16 ((s.i.toNat + b.toNat) % s.cfg.addIModulus.toNat)

/-- The target of BNNN: `(NNN + V[0]) mod 65536` (R104). -/
def State.jumpSum (s : State) (nnn : Imm12) : Word := BitVec.ofNat 16 (nnn.toNat + (s.getV reg0).toNat)

/-- Whether the key a register names is down; a number above 15 is fatal (R160, R161, R173). -/
def State.keyDown (s : State) (b : Byte) : Except Fault Bool :=
  if h : b.toNat < 16 then .ok (s.keys[b.toNat]'h) else .error (.keyIndexOutOfRange b)

/-- The least key that is down (R162). -/
def State.firstKey (s : State) : Option (Fin 16) := (List.finRange 16).find? fun k => s.keys[k]

/-- DISP[x, y]: column x counted from the left, the row's most significant bit first (R21). -/
def State.pixel (s : State) (x : Fin 64) (y : Fin 32) : Bool := (s.disp[y]).getMsbD x.val

/-- A sprite row byte laid out in a display row with its bit 7 at column `x` (R152 (c)): what passes column 63 falls
off, "clipped, not wrapped" (R151, R152 (a)). -/
def spriteRow (b : Byte) (x : Byte) : DispRow := (b ++ (0 : BitVec 56)) >>> x.toNat

/-- The pixels a sprite touches in display row `y` when drawn from row `y0`: sprite row r lies at `y0 + r` (R151). -/
def spriteAt (bs : List Byte) (x y0 : Byte) (y : Nat) : DispRow :=
  if y0.toNat ≤ y then
    match bs[y - y0.toNat]? with
    | some b => spriteRow b x
    | none => 0
  else 0

/-- DISP after a draw: XOR of the sprite's pixels (R151). -/
def drawn (d : Vector DispRow 32) (bs : List Byte) (x y0 : Byte) : Vector DispRow 32 :=
  d.mapIdx fun y row => row ^^^ spriteAt bs x y0 y

end Sys2Proof.Machine
end

