-- ==== Sys2Proof/Machine/Flags.lean ====
section
/-! DEFINITION. The values written to VF as a flag (spec/10_state.md R13), each computed from the operands as they
were before the instruction (spec/40_execution_cycle.md R88). -/

namespace Sys2Proof.Machine

/-- A flag is the byte 1 or 0. -/
def flagByte (c : Bool) : Byte := if c then 1 else 0

/-- 8XY4: 1 iff the unreduced sum exceeds 255 (R126). -/
def carryFlag (a b : Byte) : Byte := flagByte (decide (a.toNat + b.toNat > 255))

/-- 8XY5 and 8XY7: 0 iff the subtrahend exceeds the minuend (R127, R129, R131). -/
def notBorrowFlag (minuend subtrahend : Byte) : Byte := flagByte (!decide (subtrahend.toNat > minuend.toNat))

/-- 8XY6: bit 0 of the old Vx (R128). -/
def lowBitFlag (a : Byte) : Byte := BitVec.ofNat 8 (a.toNat % 2)

/-- 8XYE: bit 7 of the old Vx (R130). -/
def highBitFlag (a : Byte) : Byte := BitVec.ofNat 8 (a.toNat / 128)

/-- DXYN: 1 iff some pixel of the grid that is set is flipped (R151). -/
def collisionFlag (d : Vector DispRow 32) (bs : List Byte) (x y0 : Byte) : Byte :=
  flagByte ((List.finRange 32).any fun y => (d[y] &&& spriteAt bs x y0 y.val) != 0)

/-- VX takes the result, then VF the flag: "VF assignment happens last" (R88, R132). -/
def State.setWithFlag (x : Reg) (result flag : Byte) (s : State) : State := (s.setV x result).setV regF flag

end Sys2Proof.Machine
end

