-- ==== Sys2Proof/Machine/ControlFlow.lean ====
section
/-! DEFINITION. Control transfer (spec/41_control_flow.md R100 to R105). PC is the instruction's own address
(spec/40_execution_cycle.md R87); a target is not checked until the next fetch. -/

namespace Sys2Proof.Machine

/-- 0NNN SYS: ignored but for the advance of PC (R100, D8; log 16). -/
def execSys (_nnn : Imm12) (s : State) : Host.Outcome State Fault Refusal := .next (s.advance 2)

/-- 00EE RET (R101; with an empty stack D6, log 16). -/
def execRet (s : State) : Host.Outcome State Fault Refusal := .next s.pop

/-- 1NNN JP NNN (R102). -/
def execJp (nnn : Imm12) (s : State) : Host.Outcome State Fault Refusal := .next (s.setPc (immWord nnn))

/-- 2NNN CALL NNN: the CALL's own address is pushed if there is room; the jump happens either way (R103). -/
def execCall (nnn : Imm12) (s : State) : Host.Outcome State Fault Refusal := .next (s.push.setPc (immWord nnn))

/-- BNNN JP V0, NNN (R104). -/
def execJpV0 (nnn : Imm12) (s : State) : Host.Outcome State Fault Refusal := .next (s.setPc (s.jumpSum nnn))

end Sys2Proof.Machine
end

