-- ==== Sys2Proof/Machine/Display.lean ====
section
/-! DEFINITION. The display instructions (spec/45_display.md R150 to R153). -/

namespace Sys2Proof.Machine

/-- 00E0 CLS: every pixel 0, DIRTY set (R150). -/
def execCls (s : State) : Host.Outcome State Fault Refusal :=
  .next ((s.paint (Vector.replicate 32 0)).advance 2)

/-- DXYN DRW Vx, Vy, N: all N bytes are read before anything is drawn (D13; log 21); the origin and VF are the old
values (R88 (c)); VF is written last (R151). -/
def execDrw (x y : Reg) (n : Nibble) (s : State) : Host.Outcome State Fault Refusal :=
  match s.loadBytes (s.dataAddr 0) n.toNat with
  | .error c => .fault c
  | .ok bs =>
    let flag := collisionFlag s.disp bs (s.getV x) (s.getV y)
    .next (((s.paint (drawn s.disp bs (s.getV x) (s.getV y))).setV regF flag).advance 2)

end Sys2Proof.Machine
end

