-- ==== Sys2Proof/Machine/IndexMemory.lean ====
section
/-! DEFINITION. The index register and data memory (spec/44_index_memory.md R140 to R146). -/

namespace Sys2Proof.Machine

/-- ANNN LD I, NNN (R140). -/
def execLdI (nnn : Imm12) (s : State) : Host.Outcome State Fault Refusal :=
  .next ((s.setI (immWord nnn)).advance 2)

/-- FX1E ADD I, Vx: modulo `ADD_I_MODULUS`, VF not written (R141, D17, D33). -/
def execAddI (x : Reg) (s : State) : Host.Outcome State Fault Refusal :=
  .next ((s.setI (s.indexSum (s.getV x))).advance 2)

/-- FX29 LD F, Vx: 5 * Vx, not masked (R142, D28; log 26). -/
def execLdF (x : Reg) (s : State) : Host.Outcome State Fault Refusal :=
  .next ((s.setI (glyphAddr (s.getV x))).advance 2)

/-- FX33 LD B, Vx: three decimal digits at I, I + 1, I + 2; I stays (R143). -/
def execLdB (x : Reg) (s : State) : Host.Outcome State Fault Refusal :=
  match s.storeBytes (s.dataAddr 0) (decimalDigits (s.getV x)) with
  | .error c => .fault c
  | .ok t => .next (t.advance 2)

/-- FX55 LD [I], Vx: V0 to VX at I and on, then I by the policy (R144). -/
def execStore (x : Reg) (s : State) : Host.Outcome State Fault Refusal :=
  match s.storeBytes (s.dataAddr 0) (s.regRange x) with
  | .error c => .fault c
  | .ok t => .next ((t.setI (s.indexAfterRange x)).advance 2)

/-- FX65 LD Vx, [I]: V0 to VX from I and on, then I by the policy (R145). -/
def execLoad (x : Reg) (s : State) : Host.Outcome State Fault Refusal :=
  match s.loadBytes (s.dataAddr 0) (rangeCount x) with
  | .error c => .fault c
  | .ok bs => .next (((s.setAllV (s.withRange bs)).setI (s.indexAfterRange x)).advance 2)

end Sys2Proof.Machine
end

