-- ==== Sys2Proof/Machine/Skips.lean ====
section
/-! DEFINITION. The register-compare skips (spec/42_skips.md R110 to R114). Which family tests what is the
spec's decision D34 (log 25). -/

namespace Sys2Proof.Machine

/-- "if the condition holds, advance PC by 4, else by 2" (R114). -/
def State.skipIf (c : Bool) (s : State) : State := s.advance (if c then 4 else 2)

/-- 3XNN SE Vx, NN (R110). -/
def execSeImm (x : Reg) (nn : Byte) (s : State) : Host.Outcome State Fault Refusal :=
  .next (s.skipIf (s.getV x == nn))

/-- 4XNN SNE Vx, NN (R111). -/
def execSneImm (x : Reg) (nn : Byte) (s : State) : Host.Outcome State Fault Refusal :=
  .next (s.skipIf (s.getV x != nn))

/-- 5XYn SE Vx, Vy, for every low nibble (R112, R65; log 18). -/
def execSeReg (x y : Reg) (_n : Nibble) (s : State) : Host.Outcome State Fault Refusal :=
  .next (s.skipIf (s.getV x == s.getV y))

/-- 9XYn SNE Vx, Vy, for every low nibble (R113, R65; log 18). -/
def execSneReg (x y : Reg) (_n : Nibble) (s : State) : Host.Outcome State Fault Refusal :=
  .next (s.skipIf (s.getV x != s.getV y))

end Sys2Proof.Machine
end

