-- ==== Sys2Proof/Machine/KeysTimers.lean ====
section
/-! DEFINITION. Keys and timers (spec/46_keys_timers.md R160 to R165). -/

namespace Sys2Proof.Machine

/-- EX9E SKP Vx: a key number above 15 is fatal, checked first (R160). -/
def execSkp (x : Reg) (s : State) : Host.Outcome State Fault Refusal :=
  match s.keyDown (s.getV x) with
  | .error c => .fault c
  | .ok down => .next (s.skipIf down)

/-- EXA1 SKNP Vx (R161). -/
def execSknp (x : Reg) (s : State) : Host.Outcome State Fault Refusal :=
  match s.keyDown (s.getV x) with
  | .error c => .fault c
  | .ok down => .next (s.skipIf (!down))

/-- FX07 LD Vx, DT (R163). -/
def execLdVxDt (x : Reg) (s : State) : Host.Outcome State Fault Refusal :=
  .next ((s.setV x s.dt).advance 2)

/-- FX0A LD Vx, K: the least key down, or no change at all, so that the same word is fetched again (R162, C9). -/
def execLdVxK (x : Reg) (s : State) : Host.Outcome State Fault Refusal :=
  .next (match s.firstKey with
    | some k => (s.setV x (BitVec.ofNat 8 k.val)).advance 2
    | none => s)

/-- FX15 LD DT, Vx (R164). -/
def execLdDtVx (x : Reg) (s : State) : Host.Outcome State Fault Refusal :=
  .next ((s.setDt (s.getV x)).advance 2)

/-- FX18 LD ST, Vx: no cue, whatever the value (R165). -/
def execLdStVx (x : Reg) (s : State) : Host.Outcome State Fault Refusal :=
  .next ((s.setSt (s.getV x)).advance 2)

end Sys2Proof.Machine
end

