-- ==== Sys2Proof/Machine/RegisterAlu.lean ====
section
/-! DEFINITION. Register load, arithmetic and logic (spec/43_register_alu.md R120 to R133). Operands are read
before any write; where a rule writes VF as a flag it is written last (spec/40_execution_cycle.md R88). -/

namespace Sys2Proof.Machine

/-- 6XNN LD Vx, NN (R120). -/
def execLdImm (x : Reg) (nn : Byte) (s : State) : Host.Outcome State Fault Refusal :=
  .next ((s.setV x nn).advance 2)

/-- 7XNN ADD Vx, NN: modulo 256, no flag (R121). -/
def execAddImm (x : Reg) (nn : Byte) (s : State) : Host.Outcome State Fault Refusal :=
  .next ((s.setV x (s.getV x + nn)).advance 2)

/-- 8XY0 LD Vx, Vy (R122). -/
def execLdReg (x y : Reg) (s : State) : Host.Outcome State Fault Refusal :=
  .next ((s.setV x (s.getV y)).advance 2)

/-- 8XY1 OR Vx, Vy: VF is no flag here (R123, D33; log 24). -/
def execOr (x y : Reg) (s : State) : Host.Outcome State Fault Refusal :=
  .next ((s.setV x (s.getV x ||| s.getV y)).advance 2)

/-- 8XY2 AND Vx, Vy (R124). -/
def execAnd (x y : Reg) (s : State) : Host.Outcome State Fault Refusal :=
  .next ((s.setV x (s.getV x &&& s.getV y)).advance 2)

/-- 8XY3 XOR Vx, Vy (R125). -/
def execXor (x y : Reg) (s : State) : Host.Outcome State Fault Refusal :=
  .next ((s.setV x (s.getV x ^^^ s.getV y)).advance 2)

/-- 8XY4 ADD Vx, Vy: the sum modulo 256, VF the carry (R126). -/
def execAddReg (x y : Reg) (s : State) : Host.Outcome State Fault Refusal :=
  .next ((s.setWithFlag x (s.getV x + s.getV y) (carryFlag (s.getV x) (s.getV y))).advance 2)

/-- 8XY5 SUB Vx, Vy: Vx - Vy modulo 256, VF the NOT of borrow (R127). -/
def execSub (x y : Reg) (s : State) : Host.Outcome State Fault Refusal :=
  .next ((s.setWithFlag x (s.getV x - s.getV y) (notBorrowFlag (s.getV x) (s.getV y))).advance 2)

/-- 8XY6 SHR Vx: by one bit, Vy plays no part (R128, D33; log 24). -/
def execShr (x _y : Reg) (s : State) : Host.Outcome State Fault Refusal :=
  .next ((s.setWithFlag x (s.getV x >>> 1) (lowBitFlag (s.getV x))).advance 2)

/-- 8XY7 SUBN Vx, Vy: Vy - Vx modulo 256, VF the NOT of borrow (R129). -/
def execSubn (x y : Reg) (s : State) : Host.Outcome State Fault Refusal :=
  .next ((s.setWithFlag x (s.getV y - s.getV x) (notBorrowFlag (s.getV y) (s.getV x))).advance 2)

/-- 8XYE SHL Vx: by one bit, Vy plays no part (R130, D33; log 24). -/
def execShl (x _y : Reg) (s : State) : Host.Outcome State Fault Refusal :=
  .next ((s.setWithFlag x (s.getV x <<< 1) (highBitFlag (s.getV x))).advance 2)

/-- CXNN RND Vx, NN: a fresh byte of the environment AND NN (R133; log 3). -/
def execRnd (x : Reg) (nn : Byte) (s : State) : Host.Outcome State Fault Refusal :=
  .next ((s.nextRand.setV x (s.randByte &&& nn)).advance 2)

end Sys2Proof.Machine
end

