-- ==== Sys2Proof/Machine/Scheduler.lean ====
section
/-! DEFINITION. The scheduler iteration (spec/40_execution_cycle.md R80 to R92), the timer tick
(spec/60_exceptions.md R180, R181) and the host's signals (R191). -/

namespace Sys2Proof.Machine

/-- The input update at the start of an iteration: KEYS takes the next latch value; with no transition pending it
keeps its value (R81; log 2). -/
def State.applyKeys (s : State) : State :=
  match s.keysIn with
  | k :: ks => { s with keys := k, keysIn := ks }
  | [] => s

/-- A timer counts toward zero only (R19, R180). -/
def countDown (b : Byte) : Byte := if b = 0 then 0 else b - 1

/-- TimerTick (R180): both timers count down; a cue is emitted by the tick that takes ST from 1 to 0, and by nothing
else (R181). -/
def State.timerTick (s : State) : State :=
  { s with dt := countDown s.dt, st := countDown s.st, out := s.out ++ (if s.st = 1 then [.audioCue] else []) }

/-- The render signal at a tick: once if DIRTY, which is then cleared (R83). -/
def State.renderTick (s : State) : State :=
  { s with out := s.out ++ (if s.dirty then [.render] else []), dirty := false }

/-- What follows a completed instruction: ICOUNT, and at the DIVISOR-th one the tick and the render signal
(R80 steps 3 and 4, R82). -/
def State.countInstr (s : State) : State :=
  if s.icount + 1 = s.cfg.divisor then ({ s with icount := 0 } : State).timerTick.renderTick
  else { s with icount := s.icount + 1 }

/-- The instruction step: fetch, decode, execute, in this order (R84 to R86, R175). -/
def instrStep (s : State) : Host.Outcome State Fault Refusal :=
  match s.fetch with
  | .error c => .fault c
  | .ok w =>
    match decodeWord w with
    | .error _ => .fault (.decodeFailure w)
    | .ok i => exec i s

/-- One scheduler iteration (R80): keys, one instruction, the count and perhaps a tick; a fatal condition ends it at
once (R90). -/
def iteration (s : State) : Host.Outcome State Fault Refusal :=
  match instrStep s.applyKeys with
  | .next t => .next t.countInstr
  | .fault c => .next (s.applyKeys.takeFault c)
  | .refused r => .refused r

/-- The host's signal for this step, the first of those to come (R191). -/
def State.hostSignal (s : State) : HostSignal := s.hostCtl.headD .none

/-- The state a step works on: the signal is sampled, and the events of the step before are over. -/
def State.sampled (s : State) : State := { s with hostCtl := s.hostCtl.tail, out := [] }

/-- The explicit stop (R91): only a running machine is stopped, since `halted` is left by nothing but a host reset
(R174; log 31). -/
def State.quit (s : State) : State := { s with halt := if s.halt = .running then .stopped else s.halt }

/-- One step: the host's signal is sampled between iterations (R191); where it is none, and only while
HALT = Running, one iteration is performed (R80). A paused, halted or stopped machine performs none. -/
def schedulerStep (s : State) : Host.Outcome State Fault Refusal :=
  match s.hostSignal with
  | .quit => .next s.sampled.quit
  | .pause => .next s.sampled
  | .reset => s.sampled.reboot s.image
  | .reload p => s.sampled.reboot p
  | .none =>
    match s.halt with
    | .running => iteration s.sampled
    | .halted _ => .next s.sampled
    | .stopped => .next s.sampled

/-- A running machine with no signal waiting, whose next fetch reads the word `w` (or, where PC is above 4094, finds
no byte of MEM to read). -/
def State.readyWith (w : Word) (s : State) : State :=
  { s.placeWord s.pc.toNat w with halt := .running, hostCtl := [] }

end Sys2Proof.Machine
end

