-- ==== Sys2Proof/Machine/Step.lean ====
section
/-! DEFINITION. The step, and the placing of one instruction where it fetches. -/

namespace Sys2Proof.Machine

/-- One step of the machine: the host's signal, then one scheduler iteration (spec/40_execution_cycle.md R80, R91). -/
def step (s : State) : Host.Outcome State Fault Refusal := schedulerStep s

/-- `s` with the instruction whose bits are `w` (numbered as spec/opcode_table.json numbers them) stored at PC, so
that the next step runs it. PC is not moved; where a host signal or HALT would keep the next step from fetching,
they are cleared (log 9). -/
def State.withFetchWord (s : State) (nbits w : Nat) : State := s.readyWith (BitVec.ofNat 16 (w % 2 ^ nbits))

end Sys2Proof.Machine
end

