-- ==== Sys2Proof/Safety.lean ====
section
/-! DEFINITION. The terms claims use: the invariant, the pieces of state a frame speaks of, which piece each
instruction may write (the "written by" column of spec/10_state.md R10), and when a program has finished. -/

namespace Sys2Proof.Machine

/-- What holds of the machine at reset and after every step: MEM is in canonical form, the divisor is at least 1
(R5), ICOUNT is in 0..DIVISOR-1 between iterations (R10, R24), and the kept image fits in MEM (R202). -/
abbrev State.Inv (s : State) : Prop :=
  Memory.wf s.cfg.font s.mem ∧ 1 ≤ s.cfg.divisor ∧ s.icount < s.cfg.divisor ∧ s.image.length ≤ maxProgram

/-- The pieces of the state: the thirteen components of R10, the parameters, and the step's inputs and outputs. -/
inductive Piece where
  | v | i | pc | sp | stack | dt | st | mem | disp | dirty | keys | icount | halt
  | cfg | image | keysIn | hostCtl | randIn | freeCtr | out
deriving DecidableEq, Repr

/-- A piece holds the same in two states: registers as each reads, memory as each address reads. -/
def Piece.same (s t : State) : Piece → Prop
  | .v => ∀ r, t.getV r = s.getV r
  | .i => t.i = s.i
  | .pc => t.pc = s.pc
  | .sp => t.sp = s.sp
  | .stack => t.stack = s.stack
  | .dt => t.dt = s.dt
  | .st => t.st = s.st
  | .mem => ∀ a, t.memRead a = s.memRead a
  | .disp => t.disp = s.disp
  | .dirty => t.dirty = s.dirty
  | .keys => t.keys = s.keys
  | .icount => t.icount = s.icount
  | .halt => t.halt = s.halt
  | .cfg => t.cfg = s.cfg
  | .image => t.image = s.image
  | .keysIn => t.keysIn = s.keysIn
  | .hostCtl => t.hostCtl = s.hostCtl
  | .randIn => t.randIn = s.randIn
  | .freeCtr => t.freeCtr = s.freeCtr
  | .out => t.out = s.out

/-- `t` is `s` in every piece but those listed: the frame of an operation. -/
def UnchangedBut (ps : List Piece) (s t : State) : Prop := ∀ p, p ∉ ps → p.same s t

/-- The pieces an instruction may write (R10, column "written by"); a CXNN also uses up a random byte (R133). -/
def mayWrite : Instr → List Piece
  | .sys _ | .jp _ | .jpV0 _ | .seImm _ _ | .sneImm _ _ | .seReg _ _ _ | .sneReg _ _ _ | .skp _ | .sknp _ => [.pc]
  | .ret => [.pc, .sp]
  | .call _ => [.pc, .sp, .stack]
  | .ldImm _ _ | .addImm _ _ | .ldReg _ _ | .or _ _ | .and _ _ | .xor _ _ => [.pc, .v]
  | .addReg _ _ | .sub _ _ | .shr _ _ | .subn _ _ | .shl _ _ | .ldVxDt _ | .ldVxK _ => [.pc, .v]
  | .rnd _ _ => [.pc, .v, .randIn, .freeCtr]
  | .ldI _ | .addI _ | .ldF _ => [.pc, .i]
  | .ldB _ => [.pc, .mem]
  | .store _ => [.pc, .mem, .i]
  | .load _ => [.pc, .v, .i]
  | .cls => [.pc, .disp, .dirty]
  | .drw _ _ _ => [.pc, .v, .disp, .dirty]
  | .ldDtVx _ => [.pc, .dt]
  | .ldStVx _ => [.pc, .st]

/-- Whether an instruction may write register `r`: its destination X, the range V0 to VX of FX65, and VF for the
six flag-writing instructions of R13. -/
def mayWriteReg (r : Reg) : Instr → Bool
  | .ldImm x _ | .addImm x _ | .ldReg x _ | .or x _ | .and x _ | .xor x _ => r == x
  | .rnd x _ | .ldVxDt x | .ldVxK x => r == x
  | .addReg x _ | .sub x _ | .shr x _ | .subn x _ | .shl x _ => r == x || r == regF
  | .drw _ _ _ => r == regF
  | .load x => decide (r.toNat ≤ x.toNat)
  | .cls | .ret | .sys _ | .jp _ | .call _ | .seImm _ _ | .sneImm _ _ | .seReg _ _ _ | .sneReg _ _ _ => false
  | .ldI _ | .jpV0 _ | .skp _ | .sknp _ | .ldDtVx _ | .ldStVx _ | .addI _ | .ldF _ | .ldB _ | .store _ => false

/-- How many bytes of data memory, from I on, an instruction stores to (R40). -/
def storedCount : Instr → Nat
  | .ldB _ => 3
  | .store x => rangeCount x
  | _ => 0

/-- How many bytes of data memory, from I on, an instruction reads or stores (R40, R53). -/
def accessCount : Instr → Nat
  | .drw _ _ n => n.toNat
  | .ldB _ => 3
  | .store x => rangeCount x
  | .load x => rangeCount x
  | _ => 0

/-- Whether an instruction takes its register as a key number (R160, R161). -/
def keyOperand : Instr → Option Reg
  | .skp x => some x
  | .sknp x => some x
  | _ => none

/-- `n` timer ticks one after another, with nothing between them (R180). -/
def State.afterTicks (s : State) : Nat → State
  | 0 => s
  | n + 1 => (s.afterTicks n).timerTick

/-- The state the instruction of a step works on: the host's signal is sampled and the keys are applied (R80
step 1, R81, R191). -/
def State.begun (s : State) : State := s.sampled.applyKeys

/-- A step of this state performs an iteration: HALT = Running and the host gives no signal (R80, R191). -/
def State.iterates (s : State) : Prop := s.hostSignal = .none ∧ s.halt = .running

/-- The pieces no instruction reads (R10, column "read by"; R24, R25, R182): ST, DIRTY, ICOUNT and HALT replaced. -/
def State.withUnread (s : State) (st : Byte) (dirty : Bool) (icount : Nat) (halt : RunStatus) : State :=
  { s with st := st, dirty := dirty, icount := icount, halt := halt }

/-- "the program has finished" by the convention of R220: running at a jump to its own address. -/
def State.finished (s : State) : Prop :=
  s.halt = .running ∧ s.pc.toNat ≤ 4094 ∧ s.fetch = .ok (0x1000 + s.pc)

end Sys2Proof.Machine
end

