-- ==== Sys2Proof/Certificates/Slice0/Obligations.lean ====
section
/-! DEFINITION. The statements for the provers. Each docstring names the rules of spec/ a statement formalises, and
the spec's decision or the log entry where it rests on one. `s`, `t` are states, `x`, `y`, `r` register numbers. -/

open Sys2Proof Sys2Proof.Machine

/-! ### Encoding -/

/-- Decoding an encoded instruction gives it back, every operand at every value (30 R60 to R66). -/
def Obligations.DecodeOfEncodeIsIdentity : Prop :=
  ∀ i : Instr, i.wellFormed = true → decodeWord (encode i) = .ok i

/-- Encoding a decoded word gives the word back, so decoding drops no bit, and what is decoded is well formed
(30 R62 to R66). -/
def Obligations.EncodeOfDecodeIsTheWord : Prop :=
  ∀ (w : Word) (i : Instr), decodeWord w = .ok i → encode i = w ∧ i.wellFormed = true

/-- The two-level dispatch of R63 to R65 decodes every word as the opcode map R66 does, rows tried top to bottom. -/
def Obligations.DecoderFollowsTheOpcodeMap : Prop :=
  ∀ w : Word, (decodeWord w).toOption = decodeByRows w

/-- The illegal words are exactly those of R67, and an instruction step on one raises DecodeFailure (R67; the E family
compares the low byte by the spec's decision D10, log 18). -/
def Obligations.IllegalWordsAreExactlyThese : Prop :=
  ∀ w : Word,
    ((∃ why, decodeWord w = .error why) ↔
      (opOf w = 0x8 ∧ nOf w ∈ [0x8, 0x9, 0xA, 0xB, 0xC, 0xD, 0xF]) ∨
      (opOf w = 0xE ∧ nnOf w ∉ [0x9E, 0xA1]) ∨
      (opOf w = 0xF ∧ nnOf w ∉ [0x07, 0x0A, 0x15, 0x18, 0x1E, 0x29, 0x33, 0x55, 0x65])) ∧
    ∀ s : State, s.fetch = .ok w → (∃ why, decodeWord w = .error why) → instrStep s = .fault (.decodeFailure w)

/-- A few words written out from the spec's encodings decode to the instructions they stand for (30 R66; the words are
those of 95_test_vectors.md section 2.2 and of the instruction rules' examples). -/
def Obligations.SampleWordsDecode : Prop :=
  decodeWord 0x00E0 = .ok .cls ∧ decodeWord 0x01E0 = .ok (.sys 0x1E0) ∧ decodeWord 0xBABC = .ok (.jpV0 0xABC) ∧
  decodeWord 0x332A = .ok (.seImm 0x3 0x2A) ∧ decodeWord 0x8014 = .ok (.addReg 0x0 0x1) ∧
  decodeWord 0xD012 = .ok (.drw 0x0 0x1 0x2) ∧ decodeWord 0xE2A1 = .ok (.sknp 0x2) ∧
  decodeWord 0xF265 = .ok (.load 0x2)

/-! ### The step -/

/-- Where the word at PC decodes to `i`, a step is exec of `i`, after the keys are applied, followed by the count and
perhaps a tick, or by the halt where the instruction raises a fatal condition (40 R80, R84 to R86, R90). -/
def Obligations.StepRunsTheDecodedInstruction : Prop :=
  ∀ (s : State) (w : Word) (i : Instr), s.iterates → s.fetch = .ok w → decodeWord w = .ok i →
    step s = match exec i s.begun with
      | .next t => .next t.countInstr
      | .fault c => .next (s.begun.takeFault c)
      | .refused r => .refused r

/-- The fetch reads the two bytes at PC, the one at the lower address the high byte, whether PC is even or odd; above
4094 it raises MemoryOutOfRange for the first address out of range (40 R84, 20 R44; the spec's decisions D1, D2,
D3, logs 13 and 14). -/
def Obligations.FetchReadsTwoBytesHighByteFirst : Prop :=
  ∀ s : State,
    (s.pc.toNat ≤ 4094 → ∃ (hi lo : Byte) (w : Word), s.memRead s.pc.toNat = .ok hi ∧
      s.memRead (s.pc.toNat + 1) = .ok lo ∧ s.fetch = .ok w ∧ w.toNat = hi.toNat * 256 + lo.toNat) ∧
    (s.pc.toNat = 4095 → s.fetch = .error (.memoryOutOfRange 4096)) ∧
    (4095 < s.pc.toNat → s.fetch = .error (.memoryOutOfRange s.pc.toNat))

/-- A fatal condition ends the iteration: HALT becomes halted with the cause, no event is emitted, and the parameters
and the kept image stay (40 R90, 60 R174; the spec's decision D14, log 1). Nothing is said of any other component. -/
def Obligations.FatalConditionHalts : Prop :=
  ∀ (s : State) (c : Fault), s.iterates → instrStep s.begun = .fault c →
    ∃ t, step s = .next t ∧ t.halt = .halted c ∧ t.out = [] ∧ t.cfg = s.cfg ∧ t.image = s.image

/-- A machine that is halted or stopped changes nothing but the inputs and outputs of the step, unless the host resets
or reloads it (10 R25, 60 R174, R176; the spec's decisions D14, D23, logs 1, 4 and 31). -/
def Obligations.HaltedIsLeftOnlyByReboot : Prop :=
  ∀ s t : State, s.halt ≠ .running → step s = .next t →
    s.hostSignal = .reset ∨ (∃ p, s.hostSignal = .reload p) ∨ UnchangedBut [.hostCtl, .out] s t

/-- After a completed instruction ICOUNT goes up by one; at DIVISOR it returns to 0 and both timers count down by one,
never below 0; otherwise the timers stay as the instruction left them (40 R82, 60 R180; the spec's decision D16, log 38). -/
def Obligations.TimersTickEveryDivisorInstructions : Prop :=
  ∀ s u : State, s.iterates → instrStep s.begun = .next u →
    ∃ t, step s = .next t ∧
      (s.icount + 1 = s.cfg.divisor →
        t.icount = 0 ∧ t.dt.toNat = u.dt.toNat - 1 ∧ t.st.toNat = u.st.toNat - 1) ∧
      (s.icount + 1 ≠ s.cfg.divisor → t.icount = s.icount + 1 ∧ t.dt = u.dt ∧ t.st = u.st) ∧
      UnchangedBut [.icount, .dt, .st, .dirty, .out] u t

/-- The render signal is emitted only at a tick, after the timers have ticked (so after their cue), once, and only if
DIRTY was set, which is then cleared; it changes nothing else (40 R83, R82; 60 R180, R181). The tick at
ICOUNT + 1 = DIVISOR is the spec's decision D16 (log 38), the cue at ST = 1 its D35 (log 28); the list of events is the model's
record of them (log 8). -/
def Obligations.RenderOnlyAtATickIfDirty : Prop :=
  ∀ s u : State, s.iterates → instrStep s.begun = .next u →
    ∃ t, step s = .next t ∧ UnchangedBut [.icount, .dt, .st, .dirty, .out] u t ∧
      (s.icount + 1 = s.cfg.divisor → t.dirty = false ∧
        t.out = (if u.st.toNat = 1 then [.audioCue] else []) ++ (if u.dirty then [.render] else [])) ∧
      (s.icount + 1 ≠ s.cfg.divisor → t.dirty = u.dirty ∧ t.out = [])

/-- The audio cue is emitted once by the tick that takes ST from 1 to 0, and by nothing else (60 R181; the spec's
decision D35, log 28). -/
def Obligations.CueOnlyWhenSoundTimerReachesZero : Prop :=
  ∀ s u : State, s.iterates → instrStep s.begun = .next u →
    ∃ t, step s = .next t ∧
      t.out.count .audioCue = if s.icount + 1 = s.cfg.divisor ∧ u.st.toNat = 1 then 1 else 0

/-- A timer holding n reaches 0 at the n-th tick and stays there (60 R180, 95 PR8). -/
def Obligations.TimerReachesZeroAtTheNthTick : Prop :=
  ∀ (s : State) (n : Nat),
    (s.afterTicks n).dt.toNat = s.dt.toNat - n ∧ (s.afterTicks n).st.toNat = s.st.toNat - n

/-- FX07 reads DT before the tick of its own iteration, and FX15's new value is decremented by it at once (40 R82, 46
R163, R164; the spec's decision D16, log 38). -/
def Obligations.TimerInstructionsActBeforeTheTick : Prop :=
  ∀ (s : State) (w : Word) (x : Reg), s.iterates → s.fetch = .ok w → s.icount + 1 = s.cfg.divisor →
    (decodeWord w = .ok (.ldVxDt x) →
      ∃ t, step s = .next t ∧ t.getV x = s.dt ∧ t.dt.toNat = s.dt.toNat - 1) ∧
    (decodeWord w = .ok (.ldDtVx x) → ∃ t, step s = .next t ∧ t.dt.toNat = (s.getV x).toNat - 1)

/-- KEYS takes the next input value at the start of an iteration, keeps its value where none is pending, and no
completed instruction changes it (10 R23, 40 R81; the spec's decision D27, the queue is the model's, log 2). -/
def Obligations.KeysChangeOnlyAtTheInputUpdate : Prop :=
  ∀ s u : State, s.iterates → instrStep s.begun = .next u →
    ∃ t, step s = .next t ∧ t.keys = s.keysIn.headD s.keys ∧ t.keysIn = s.keysIn.tail

/-- The invariant holds after every step from a state in which it holds, whatever the step does (10 R10, R24; 20 R40).
-/
def Obligations.StepKeepsInvariant : Prop :=
  ∀ s t : State, s.Inv → step s = .next t → t.Inv

/-- The invariant holds at reset. -/
def Obligations.ResetMeetsInvariant : Prop := State.reset.Inv

/-- What reset leaves: the registers, PC and memory the spec's source states, and the rest by the spec's decision D18
(10 R29, 70 R200, R201; log 7). -/
def Obligations.ResetState : Prop :=
  (∀ r, State.reset.getV r = 0) ∧ State.reset.i = 0 ∧ State.reset.pc = 0x200 ∧ State.reset.sp = 0 ∧
  State.reset.dt = 0 ∧ State.reset.st = 0 ∧
  (∀ (a : Nat) (h : a < 80), State.reset.memRead a = .ok (State.reset.cfg.font[a]'h)) ∧
  (∀ a : Nat, 80 ≤ a → a < 4096 → State.reset.memRead a = .ok 0) ∧
  (∀ x y, State.reset.pixel x y = false) ∧ State.reset.dirty = false ∧ State.reset.icount = 0 ∧
  (∀ k : Fin 16, State.reset.keys[k] = false) ∧ (∀ k : Fin 16, State.reset.stack[k] = 0) ∧
  State.reset.halt = .running

/-- A host reload (and a reset, with the image kept) puts every component but MEM at its init value, from any state
whatever, copies the image to 0x200 and leaves every other byte; an image that does not fit is refused (70 R202,
R203; the spec's decision D22, logs 11 and 12). -/
def Obligations.HostRebootReinitialisesAllButMemory : Prop :=
  ∀ (s : State) (p : List Byte), s.hostSignal = .reload p ∨ (s.hostSignal = .reset ∧ p = s.image) →
    (p.length ≤ 3584 → ∃ t, step s = .next t ∧
      (∀ r, t.getV r = 0) ∧ t.i = 0 ∧ t.pc = 0x200 ∧ t.sp = 0 ∧ (∀ k : Fin 16, t.stack[k] = 0) ∧ t.dt = 0 ∧ t.st = 0 ∧
      (∀ x y, t.pixel x y = false) ∧ t.dirty = false ∧ (∀ k : Fin 16, t.keys[k] = false) ∧ t.icount = 0 ∧
      t.halt = .running ∧ t.cfg = s.cfg ∧ t.image = p ∧ t.out = [] ∧
      (∀ (k : Nat) (h : k < p.length), t.memRead (0x200 + k) = .ok (p[k]'h)) ∧
      ∀ a : Nat, a < 0x200 ∨ 0x200 + p.length ≤ a → t.memRead a = s.memRead a) ∧
    (3584 < p.length → step s = .refused (.programTooLong p.length))

/-- quit stops a running machine and changes nothing else; pause changes nothing (60 R191, 40 R91; the spec's decision
D23, logs 4 and 31). -/
def Obligations.HostQuitAndPause : Prop :=
  ∀ s : State,
    (s.hostSignal = .quit → ∃ t, step s = .next t ∧ UnchangedBut [.halt, .hostCtl, .out] s t ∧ t.out = [] ∧
      (s.halt = .running → t.halt = .stopped) ∧ (s.halt ≠ .running → t.halt = s.halt)) ∧
    (s.hostSignal = .pause → ∃ t, step s = .next t ∧ UnchangedBut [.hostCtl, .out] s t ∧ t.out = [])

/-- A step always has a next state, but for a reload (or reset) with an image that does not fit (70 R221). -/
def Obligations.EveryStateHasANextStep : Prop :=
  ∀ s : State, s.image.length ≤ 3584 → (∀ p, s.hostSignal = .reload p → p.length ≤ 3584) → ∃ t, step s = .next t

/-- No step changes the parameters: they are fixed for a run (10 R26, 00 R5). -/
def Obligations.ParametersNeverChange : Prop :=
  ∀ s t : State, step s = .next t → t.cfg = s.cfg

/-! ### All instructions -/

/-- The frame of every instruction by pieces: it writes none but those the state table names for it (10 R10, R13). -/
def Obligations.InstructionsWriteOnlyTheirPieces : Prop :=
  ∀ (i : Instr) (s t : State), exec i s = .next t → UnchangedBut (mayWrite i) s t

/-- The frame of every instruction by registers: its destination, the range of FX65, and VF for the six flag-writing
instructions, and no other register (10 R13). -/
def Obligations.InstructionsWriteOnlyTheirRegisters : Prop :=
  ∀ (i : Instr) (s t : State) (r : Reg), exec i s = .next t → mayWriteReg r i = false → t.getV r = s.getV r

/-- The frame of every instruction by bytes: FX33 stores at I, I+1, I+2, FX55 at I to I+X, and every other byte, and
every byte for every other instruction, reads as before (20 R40, R45). -/
def Obligations.InstructionsStoreOnlyFromI : Prop :=
  ∀ (i : Instr) (s t : State) (a : Nat), exec i s = .next t →
    a < s.i.toNat ∨ s.i.toNat + storedCount i ≤ a → t.memRead a = s.memRead a

/-- The last stack slot is written by no instruction, and a push or pop moves SP by at most one (10 R17, R18). -/
def Obligations.StackSlotFifteenIsNeverWritten : Prop :=
  ∀ (i : Instr) (s t : State), exec i s = .next t →
    t.stack[15] = s.stack[15] ∧ t.sp.val ≤ s.sp.val + 1 ∧ s.sp.val ≤ t.sp.val + 1

/-- MemoryOutOfRange is raised by a read or a write of an address above 4095; by exactly DXYN, FX33, FX55, FX65, where a
byte they reach from I on is above 4095; and by the fetch where PC is above 4094. It records the first address out of
range (60 R172). The fault of the fetch is the spec's decision D3 (log 14), that of clipped rows its D13 (log 21), the
address that is not reduced its D31 (log 29). -/
def Obligations.MemoryFaultsExactlyOutOfRange : Prop :=
  (∀ (s : State) (a : Nat) (b : Byte) (c : Fault),
    (s.memRead a = .error c ↔ 4095 < a ∧ c = .memoryOutOfRange a) ∧
    (s.memWrite a b = .error c ↔ 4095 < a ∧ c = .memoryOutOfRange a)) ∧
  (∀ (i : Instr) (s : State) (a : Nat), exec i s = .fault (.memoryOutOfRange a) ↔
    accessCount i ≠ 0 ∧ 4095 < s.i.toNat + (accessCount i - 1) ∧ a = max s.i.toNat 4096) ∧
  ∀ (s : State) (a : Nat), s.fetch = .error (.memoryOutOfRange a) ↔ 4094 < s.pc.toNat ∧ a = max s.pc.toNat 4096

/-- KeyIndexOutOfRange is raised exactly by EX9E and EXA1 with a register above 15 (60 R173; the spec's decision D11,
log 19). -/
def Obligations.KeyFaultsExactlyAboveFifteen : Prop :=
  ∀ (i : Instr) (s : State) (v : Byte), exec i s = .fault (.keyIndexOutOfRange v) ↔
    ∃ x, keyOperand i = some x ∧ v = s.getV x ∧ 15 < v.toNat

/-- No instruction is refused, and none raises a decode failure of its own (60 R170, R175). -/
def Obligations.NoInstructionIsRefused : Prop :=
  ∀ (i : Instr) (s : State), (∀ r, exec i s ≠ .refused r) ∧ ∀ w, exec i s ≠ .fault (.decodeFailure w)

/-- No instruction reads ST, DIRTY, ICOUNT or HALT: with any values in them it completes or faults alike and leaves
everything else alike (10 R10 column "read by", R22, R24; 60 R182). -/
def Obligations.NoInstructionReadsSchedulerState : Prop :=
  ∀ (i : Instr) (s : State) (st : Byte) (dirty : Bool) (icount : Nat) (halt : RunStatus),
    match exec i s with
    | .next t => ∃ u, exec i (s.withUnread st dirty icount halt) = .next u ∧ UnchangedBut [.st, .dirty, .icount, .halt] t u
    | .fault c => exec i (s.withUnread st dirty icount halt) = .fault c
    | .refused _ => False

/-! ### Control transfer -/

/-- SYS only advances PC (41 R100; the advance is the spec's decision D8, log 16). -/
def Obligations.SysOnlyAdvances : Prop :=
  ∀ (nnn : Imm12) (s : State), ∃ t, exec (.sys nnn) s = .next t ∧ t.pc = s.pc + 2 ∧ UnchangedBut [.pc] s t

/-- JP goes to NNN and JP V0 to NNN + V0; neither checks or changes anything else (41 R102, R104). -/
def Obligations.JumpsGoToTheirTarget : Prop :=
  ∀ (nnn : Imm12) (s : State),
    (∃ t, exec (.jp nnn) s = .next t ∧ t.pc.toNat = nnn.toNat ∧ UnchangedBut [.pc] s t) ∧
    (∃ t, exec (.jpV0 nnn) s = .next t ∧ t.pc.toNat = (nnn.toNat + (s.getV 0).toNat) % 65536 ∧ UnchangedBut [.pc] s t)

/-- CALL jumps, and pushes its own address where SP is below 15; with a full stack it jumps and loses the return record
(41 R103; the slot order is the spec's decision D7, log 17). -/
def Obligations.CallPushesItsOwnAddress : Prop :=
  ∀ (nnn : Imm12) (s : State), ∃ t, exec (.call nnn) s = .next t ∧ t.pc.toNat = nnn.toNat ∧
    (s.sp.val < 15 → t.sp.val = s.sp.val + 1 ∧
      ∀ k : Fin 16, t.stack[k] = if k = s.sp then s.pc else s.stack[k]) ∧
    (s.sp.val = 15 → t.sp = s.sp ∧ t.stack = s.stack) ∧
    UnchangedBut [.pc, .sp, .stack] s t

/-- RET returns to two past the popped address and leaves the slot; with an empty stack it only advances (41 R101; the
empty-stack case is the spec's decision D6, the slot order D7, logs 16 and 17). -/
def Obligations.ReturnPopsAndAdvances : Prop :=
  ∀ s : State, ∃ t, exec .ret s = .next t ∧ UnchangedBut [.pc, .sp] s t ∧
    (∀ k : Fin 16, s.sp.val = k.val + 1 → t.sp = k ∧ t.pc = s.stack[k] + 2) ∧
    (s.sp.val = 0 → t.sp = s.sp ∧ t.pc = s.pc + 2)

/-- A CALL and then a RET go on two past the CALL, for any SP below 15, with SP as before (95 PR7; 41 R101, R103). -/
def Obligations.CallThenReturnRoundTrip : Prop :=
  ∀ (nnn : Imm12) (s : State), s.sp.val < 15 →
    ∃ t u, exec (.call nnn) s = .next t ∧ exec .ret t = .next u ∧ u.pc = s.pc + 2 ∧ u.sp = s.sp ∧
      UnchangedBut [.pc, .stack] s u

/-- The four compare skips advance by 4 where their condition holds and by 2 where it does not, whatever the low nibble
of 5XYn and 9XYn, and change nothing else (42 R110 to R114; the pairing is the spec's decision D34, log 25; the low
nibble its D9, log 18). -/
def Obligations.SkipsCompareAndAdvance : Prop :=
  ∀ (x y : Reg) (nn : Byte) (n : Nibble) (s : State),
    (∃ t, exec (.seImm x nn) s = .next t ∧ t.pc = s.pc + (if s.getV x = nn then 4 else 2) ∧ UnchangedBut [.pc] s t) ∧
    (∃ t, exec (.sneImm x nn) s = .next t ∧ t.pc = s.pc + (if s.getV x ≠ nn then 4 else 2) ∧
      UnchangedBut [.pc] s t) ∧
    (∃ t, exec (.seReg x y n) s = .next t ∧ t.pc = s.pc + (if s.getV x = s.getV y then 4 else 2) ∧
      UnchangedBut [.pc] s t) ∧
    (∃ t, exec (.sneReg x y n) s = .next t ∧ t.pc = s.pc + (if s.getV x ≠ s.getV y then 4 else 2) ∧
      UnchangedBut [.pc] s t)

/-- Running at a jump to its own address, every iteration leaves V, I, PC, SP, STACK, MEM and DISP, and the machine is
there again (70 R220; the predicate is the spec's decision D30, log 40). -/
def Obligations.SelfJumpChangesOnlySchedulerState : Prop :=
  ∀ s : State, s.finished → s.hostSignal = .none →
    ∃ t, step s = .next t ∧ t.finished ∧
      UnchangedBut [.keys, .icount, .dt, .st, .dirty, .keysIn, .hostCtl, .out] s t

/-! ### Register load, arithmetic and logic -/

/-- LD Vx, NN, ADD Vx, NN and LD Vx, Vy: the new value, modulo 256, and no flag (43 R120, R121, R122). -/
def Obligations.LoadsAndImmediateAdd : Prop :=
  ∀ (x y : Reg) (nn : Byte) (s : State),
    (∃ t, exec (.ldImm x nn) s = .next t ∧ t.getV x = nn ∧ t.pc = s.pc + 2 ∧
      (∀ r, r ≠ x → t.getV r = s.getV r) ∧ UnchangedBut [.v, .pc] s t) ∧
    (∃ t, exec (.addImm x nn) s = .next t ∧ (t.getV x).toNat = ((s.getV x).toNat + nn.toNat) % 256 ∧
      t.pc = s.pc + 2 ∧ (∀ r, r ≠ x → t.getV r = s.getV r) ∧ UnchangedBut [.v, .pc] s t) ∧
    (∃ t, exec (.ldReg x y) s = .next t ∧ t.getV x = s.getV y ∧ t.pc = s.pc + 2 ∧
      (∀ r, r ≠ x → t.getV r = s.getV r) ∧ UnchangedBut [.v, .pc] s t)

/-- OR, AND, XOR bit by bit into Vx; VF is no flag of theirs (43 R123, R124, R125; VF unchanged is the spec's decision
D33, log 24). -/
def Obligations.LogicIsBitwiseAndSetsNoFlag : Prop :=
  ∀ (x y : Reg) (s : State),
    (∃ t, exec (.or x y) s = .next t ∧ t.pc = s.pc + 2 ∧
      (∀ b, b < 8 → (t.getV x).getLsbD b = ((s.getV x).getLsbD b || (s.getV y).getLsbD b)) ∧
      (∀ r, r ≠ x → t.getV r = s.getV r) ∧ UnchangedBut [.v, .pc] s t) ∧
    (∃ t, exec (.and x y) s = .next t ∧ t.pc = s.pc + 2 ∧
      (∀ b, b < 8 → (t.getV x).getLsbD b = ((s.getV x).getLsbD b && (s.getV y).getLsbD b)) ∧
      (∀ r, r ≠ x → t.getV r = s.getV r) ∧ UnchangedBut [.v, .pc] s t) ∧
    (∃ t, exec (.xor x y) s = .next t ∧ t.pc = s.pc + 2 ∧
      (∀ b, b < 8 → (t.getV x).getLsbD b = ((s.getV x).getLsbD b ^^ (s.getV y).getLsbD b)) ∧
      (∀ r, r ≠ x → t.getV r = s.getV r) ∧ UnchangedBut [.v, .pc] s t)

/-- ADD Vx, Vy: VF is 1 iff the sum of the old values exceeds 255, also where X or Y is 15; otherwise Vx is the sum
modulo 256 (43 R126). -/
def Obligations.AddSetsCarry : Prop :=
  ∀ (x y : Reg) (s : State), ∃ t, exec (.addReg x y) s = .next t ∧ t.pc = s.pc + 2 ∧
    (t.getV regF).toNat = (if (s.getV x).toNat + (s.getV y).toNat > 255 then 1 else 0) ∧
    (x ≠ regF → (t.getV x).toNat = ((s.getV x).toNat + (s.getV y).toNat) % 256) ∧
    (∀ r, r ≠ x → r ≠ regF → t.getV r = s.getV r) ∧ UnchangedBut [.v, .pc] s t

/-- SUB and SUBN: VF is 0 iff the subtrahend exceeds the minuend (old values, equality gives 1); Vx is the difference
modulo 256 unless X = 15 (43 R127, R129). -/
def Obligations.SubtractSetsNotBorrow : Prop :=
  ∀ (x y : Reg) (s : State),
    (∃ t, exec (.sub x y) s = .next t ∧ t.pc = s.pc + 2 ∧
      (t.getV regF).toNat = (if (s.getV y).toNat > (s.getV x).toNat then 0 else 1) ∧
      (x ≠ regF → (t.getV x).toNat = ((s.getV x).toNat + 256 - (s.getV y).toNat) % 256) ∧
      (∀ r, r ≠ x → r ≠ regF → t.getV r = s.getV r) ∧ UnchangedBut [.v, .pc] s t) ∧
    (∃ t, exec (.subn x y) s = .next t ∧ t.pc = s.pc + 2 ∧
      (t.getV regF).toNat = (if (s.getV x).toNat > (s.getV y).toNat then 0 else 1) ∧
      (x ≠ regF → (t.getV x).toNat = ((s.getV y).toNat + 256 - (s.getV x).toNat) % 256) ∧
      (∀ r, r ≠ x → r ≠ regF → t.getV r = s.getV r) ∧ UnchangedBut [.v, .pc] s t)

/-- SHR and SHL shift the old Vx by one bit, VF takes the bit shifted out, and Vy plays no part (43 R128, R130; the
operand is the spec's decision D33, log 24). -/
def Obligations.ShiftsMoveOneBitIntoFlag : Prop :=
  ∀ (x y : Reg) (s : State),
    (∃ t, exec (.shr x y) s = .next t ∧ t.pc = s.pc + 2 ∧ (t.getV regF).toNat = (s.getV x).toNat % 2 ∧
      (x ≠ regF → (t.getV x).toNat = (s.getV x).toNat / 2) ∧
      (∀ r, r ≠ x → r ≠ regF → t.getV r = s.getV r) ∧ UnchangedBut [.v, .pc] s t) ∧
    (∃ t, exec (.shl x y) s = .next t ∧ t.pc = s.pc + 2 ∧ (t.getV regF).toNat = (s.getV x).toNat / 128 ∧
      (x ≠ regF → (t.getV x).toNat = 2 * (s.getV x).toNat % 256) ∧
      (∀ r, r ≠ x → r ≠ regF → t.getV r = s.getV r) ∧ UnchangedBut [.v, .pc] s t)

/-- RND: Vx takes a byte AND NN, so no bit outside NN is set; the byte is the environment's next one where it supplies
one, which is then used up, and a free byte otherwise (43 R133; the form of the draw is log 3). -/
def Obligations.RandomByteIsMasked : Prop :=
  ∀ (x : Reg) (nn : Byte) (s : State), ∃ t r, exec (.rnd x nn) s = .next t ∧ t.getV x = r &&& nn ∧
    t.getV x &&& ~~~nn = 0 ∧ (∀ b bs, s.randIn = b :: bs → r = b ∧ t.randIn = bs ∧ t.freeCtr = s.freeCtr) ∧
    (s.randIn = [] → t.randIn = [] ∧ t.freeCtr = s.freeCtr + 1) ∧
    t.pc = s.pc + 2 ∧ (∀ q, q ≠ x → t.getV q = s.getV q) ∧ UnchangedBut [.v, .pc, .randIn, .freeCtr] s t

/-! ### The index register and memory -/

/-- LD I, NNN (44 R140). -/
def Obligations.LoadIndexImmediate : Prop :=
  ∀ (nnn : Imm12) (s : State), ∃ t, exec (.ldI nnn) s = .next t ∧ t.i.toNat = nnn.toNat ∧ t.pc = s.pc + 2 ∧
    UnchangedBut [.i, .pc] s t

/-- ADD I, Vx modulo the parameter's modulus, whichever it is, and LD F, Vx as 5 * Vx unmasked; neither writes VF (44
R141, R142; the spec's decisions D17, D28, D33, logs 5, 24 and 26). -/
def Obligations.IndexArithmetic : Prop :=
  ∀ (x : Reg) (s : State),
    (∃ t, exec (.addI x) s = .next t ∧ t.pc = s.pc + 2 ∧ UnchangedBut [.i, .pc] s t ∧
      (s.cfg.addIModulus = .full → t.i.toNat = (s.i.toNat + (s.getV x).toNat) % 65536) ∧
      (s.cfg.addIModulus = .memory → t.i.toNat = (s.i.toNat + (s.getV x).toNat) % 4096)) ∧
    (∃ t, exec (.ldF x) s = .next t ∧ t.pc = s.pc + 2 ∧ t.i.toNat = 5 * (s.getV x).toNat ∧ UnchangedBut [.i, .pc] s t)

/-- LD B, Vx stores the hundreds, tens and ones of Vx at I, I+1, I+2 and nothing else; it faults where I is above 4093
(44 R143). -/
def Obligations.DecimalDigitsAreStored : Prop :=
  ∀ (x : Reg) (s : State),
    (s.i.toNat ≤ 4093 → ∃ (t : State) (hundreds tens ones : Byte), exec (.ldB x) s = .next t ∧
      t.memRead s.i.toNat = .ok hundreds ∧ hundreds.toNat = (s.getV x).toNat / 100 ∧
      t.memRead (s.i.toNat + 1) = .ok tens ∧ tens.toNat = (s.getV x).toNat / 10 % 10 ∧
      t.memRead (s.i.toNat + 2) = .ok ones ∧ ones.toNat = (s.getV x).toNat % 10 ∧
      (∀ a, a < s.i.toNat ∨ s.i.toNat + 3 ≤ a → t.memRead a = s.memRead a) ∧
      t.pc = s.pc + 2 ∧ UnchangedBut [.mem, .pc] s t) ∧
    (4093 < s.i.toNat → exec (.ldB x) s = .fault (.memoryOutOfRange (max s.i.toNat 4096)))

/-- LD [I], Vx stores V0 to VX at I to I+X and nothing else; I stays or goes up by X+1, as the parameter says; it faults
where I+X is above 4095 (44 R144; the spec's decision D17, logs 5 and 34). -/
def Obligations.StoreWritesTheRegisterRange : Prop :=
  ∀ (x : Reg) (s : State),
    (s.i.toNat + x.toNat ≤ 4095 → ∃ t, exec (.store x) s = .next t ∧
      (∀ r : Reg, r.toNat ≤ x.toNat → t.memRead (s.i.toNat + r.toNat) = .ok (s.getV r)) ∧
      (∀ a, a < s.i.toNat ∨ s.i.toNat + x.toNat < a → t.memRead a = s.memRead a) ∧
      (s.cfg.loadStoreIncrementsI = false → t.i = s.i) ∧
      (s.cfg.loadStoreIncrementsI = true → t.i.toNat = (s.i.toNat + x.toNat + 1) % 65536) ∧
      t.pc = s.pc + 2 ∧ UnchangedBut [.mem, .i, .pc] s t) ∧
    (4095 < s.i.toNat + x.toNat → exec (.store x) s = .fault (.memoryOutOfRange (max s.i.toNat 4096)))

/-- LD Vx, [I] loads V0 to VX from I to I+X and leaves the registers above VX and all of memory; I as for LD [I], Vx; it
faults where I+X is above 4095 (44 R145; the spec's decision D17, logs 5 and 34). -/
def Obligations.LoadReadsTheRegisterRange : Prop :=
  ∀ (x : Reg) (s : State),
    (s.i.toNat + x.toNat ≤ 4095 → ∃ t, exec (.load x) s = .next t ∧
      (∀ r : Reg, r.toNat ≤ x.toNat → s.memRead (s.i.toNat + r.toNat) = .ok (t.getV r)) ∧
      (∀ r : Reg, x.toNat < r.toNat → t.getV r = s.getV r) ∧
      (s.cfg.loadStoreIncrementsI = false → t.i = s.i) ∧
      (s.cfg.loadStoreIncrementsI = true → t.i.toNat = (s.i.toNat + x.toNat + 1) % 65536) ∧
      t.pc = s.pc + 2 ∧ UnchangedBut [.v, .i, .pc] s t) ∧
    (4095 < s.i.toNat + x.toNat → exec (.load x) s = .fault (.memoryOutOfRange (max s.i.toNat 4096)))

/-- Registers stored and loaded back from the same I are as before: whatever the registers hold in between, FX65 restores
V0 to VX (44 R144, R145; the parameter at false, log 5). -/
def Obligations.StoreThenLoadRestoresRegisters : Prop :=
  ∀ (x : Reg) (s : State) (junk : Vector Byte 16), s.i.toNat + x.toNat ≤ 4095 → s.cfg.loadStoreIncrementsI = false →
    ∃ t u, exec (.store x) s = .next t ∧ exec (.load x) (t.setAllV junk) = .next u ∧
      ∀ r : Reg, r.toNat ≤ x.toNat → u.getV r = s.getV r

/-- A word stored by FX55 where PC goes next is the word fetched next: self-modifying code is seen at once (20 R51; the
spec's decision D26, log 39). -/
def Obligations.StoredBytesAreFetchedNext : Prop :=
  ∀ (x r q : Reg) (s : State), s.i.toNat + x.toNat ≤ 4095 → r.toNat + 1 = q.toNat → q.toNat ≤ x.toNat →
    (s.pc + 2).toNat = s.i.toNat + r.toNat →
    ∃ t w, exec (.store x) s = .next t ∧ t.fetch = .ok w ∧ w.toNat = (s.getV r).toNat * 256 + (s.getV q).toNat

/-! ### The display -/

/-- CLS clears every pixel and sets DIRTY (45 R150). -/
def Obligations.ClearScreen : Prop :=
  ∀ s : State, ∃ t, exec .cls s = .next t ∧ (∀ x y, t.pixel x y = false) ∧ t.dirty = true ∧ t.pc = s.pc + 2 ∧
    UnchangedBut [.disp, .dirty, .pc] s t

/-- Whether the sprite of `n` rows at I, drawn from column `x0` and row `y0`, has a bit at pixel (px, py): bit 7 of a row
is the leftmost pixel, rows go down, the origin is not reduced (45 R151, R152; log 20). -/
def spriteBit (s : State) (n x0 y0 : Nat) (px : Fin 64) (py : Fin 32) : Prop :=
  ∃ (r col : Nat) (b : Byte), r < n ∧ col < 8 ∧ px.val = x0 + col ∧ py.val = y0 + r ∧
    s.memRead (s.i.toNat + r) = .ok b ∧ b.getLsbD (7 - col) = true

/-- DRW flips exactly the pixels of the grid where the sprite has a bit, sets VF to 1 iff one of them was set, and DIRTY;
pixels outside the grid are ignored; it faults where a row it reads is above 4095, and with N = 0 reads nothing (45
R151, R152; the spec's decisions D12, D13, logs 20 and 21). -/
def Obligations.DrawFlipsTheSpritesPixels : Prop :=
  ∀ (x y : Reg) (n : Nibble) (s : State),
    (n.toNat = 0 ∨ s.i.toNat + n.toNat ≤ 4096 → ∃ t, exec (.drw x y n) s = .next t ∧
      (∀ px py, spriteBit s n.toNat (s.getV x).toNat (s.getV y).toNat px py → t.pixel px py = !s.pixel px py) ∧
      (∀ px py, ¬ spriteBit s n.toNat (s.getV x).toNat (s.getV y).toNat px py → t.pixel px py = s.pixel px py) ∧
      ((∃ px py, spriteBit s n.toNat (s.getV x).toNat (s.getV y).toNat px py ∧ s.pixel px py = true) →
        t.getV regF = 1) ∧
      ((∀ px py, spriteBit s n.toNat (s.getV x).toNat (s.getV y).toNat px py → s.pixel px py = false) →
        t.getV regF = 0) ∧
      t.dirty = true ∧ t.pc = s.pc + 2 ∧ (∀ r, r ≠ regF → t.getV r = s.getV r) ∧
      UnchangedBut [.disp, .dirty, .v, .pc] s t) ∧
    (n.toNat ≠ 0 → 4096 < s.i.toNat + n.toNat →
      exec (.drw x y n) s = .fault (.memoryOutOfRange (max s.i.toNat 4096)))

/-- Drawing the same sprite twice at the same place restores every pixel (45 R153 (a); X and Y other than 15, since a draw
writes VF). -/
def Obligations.DrawingTwiceRestoresTheDisplay : Prop :=
  ∀ (x y : Reg) (n : Nibble) (s : State), x ≠ regF → y ≠ regF → n.toNat = 0 ∨ s.i.toNat + n.toNat ≤ 4096 →
    ∃ t u, exec (.drw x y n) s = .next t ∧ exec (.drw x y n) t = .next u ∧ ∀ px py, u.pixel px py = s.pixel px py

/-! ### Keys and timers -/

/-- SKP skips where the key Vx names is down and SKNP where it is up, for key numbers up to 15; above, both fault (46
R160, R161; the spec's decision D11, log 19). -/
def Obligations.KeySkipsFollowTheLatch : Prop :=
  ∀ (x : Reg) (s : State),
    (∀ k : Fin 16, (s.getV x).toNat = k.val →
      (∃ t, exec (.skp x) s = .next t ∧ t.pc = s.pc + (if s.keys[k] = true then 4 else 2) ∧ UnchangedBut [.pc] s t) ∧
      (∃ t, exec (.sknp x) s = .next t ∧ t.pc = s.pc + (if s.keys[k] = true then 2 else 4) ∧ UnchangedBut [.pc] s t)) ∧
    (15 < (s.getV x).toNat → exec (.skp x) s = .fault (.keyIndexOutOfRange (s.getV x)) ∧
      exec (.sknp x) s = .fault (.keyIndexOutOfRange (s.getV x)))

/-- LD Vx, K takes the least key down at once, or, with none down, changes nothing at all, PC included (46 R162; the
spec's decision D32, log 27). -/
def Obligations.KeyWaitTakesTheLeastKey : Prop :=
  ∀ (x : Reg) (s : State),
    (∀ k : Fin 16, s.keys[k] = true → (∀ j : Fin 16, j < k → s.keys[j] = false) →
      ∃ t, exec (.ldVxK x) s = .next t ∧ (t.getV x).toNat = k.val ∧ t.pc = s.pc + 2 ∧
        (∀ r, r ≠ x → t.getV r = s.getV r) ∧ UnchangedBut [.v, .pc] s t) ∧
    ((∀ k : Fin 16, s.keys[k] = false) → exec (.ldVxK x) s = .next s)

/-- LD Vx, DT reads the delay timer, LD DT, Vx and LD ST, Vx write the timers, and none does anything else, no cue
included (46 R163, R164, R165; the last the spec's decision D35, log 28). -/
def Obligations.TimerInstructionsMoveTheirByte : Prop :=
  ∀ (x : Reg) (s : State),
    (∃ t, exec (.ldVxDt x) s = .next t ∧ t.getV x = s.dt ∧ t.pc = s.pc + 2 ∧ (∀ r, r ≠ x → t.getV r = s.getV r) ∧
      UnchangedBut [.v, .pc] s t) ∧
    (∃ t, exec (.ldDtVx x) s = .next t ∧ t.dt = s.getV x ∧ t.pc = s.pc + 2 ∧ UnchangedBut [.dt, .pc] s t) ∧
    (∃ t, exec (.ldStVx x) s = .next t ∧ t.st = s.getV x ∧ t.pc = s.pc + 2 ∧ UnchangedBut [.st, .pc] s t)
end

