-- ==== Sys2Proof/Laws/State.lean ====
section
/-! SUPPORT. What each update of the state does to each field: one lemma per field per update. -/

namespace Sys2Proof.Machine

variable (s : State)

/-! `setV` -/

@[simp] theorem State.setV_v (x : Reg) (b : Byte) : (s.setV x b).v = s.v.set x.toNat b x.isLt := rfl
@[simp] theorem State.setV_i (x : Reg) (b : Byte) : (s.setV x b).i = s.i := rfl
@[simp] theorem State.setV_pc (x : Reg) (b : Byte) : (s.setV x b).pc = s.pc := rfl
@[simp] theorem State.setV_sp (x : Reg) (b : Byte) : (s.setV x b).sp = s.sp := rfl
@[simp] theorem State.setV_stack (x : Reg) (b : Byte) : (s.setV x b).stack = s.stack := rfl
@[simp] theorem State.setV_dt (x : Reg) (b : Byte) : (s.setV x b).dt = s.dt := rfl
@[simp] theorem State.setV_st (x : Reg) (b : Byte) : (s.setV x b).st = s.st := rfl
@[simp] theorem State.setV_mem (x : Reg) (b : Byte) : (s.setV x b).mem = s.mem := rfl
@[simp] theorem State.setV_disp (x : Reg) (b : Byte) : (s.setV x b).disp = s.disp := rfl
@[simp] theorem State.setV_dirty (x : Reg) (b : Byte) : (s.setV x b).dirty = s.dirty := rfl
@[simp] theorem State.setV_keys (x : Reg) (b : Byte) : (s.setV x b).keys = s.keys := rfl
@[simp] theorem State.setV_icount (x : Reg) (b : Byte) : (s.setV x b).icount = s.icount := rfl
@[simp] theorem State.setV_halt (x : Reg) (b : Byte) : (s.setV x b).halt = s.halt := rfl
@[simp] theorem State.setV_cfg (x : Reg) (b : Byte) : (s.setV x b).cfg = s.cfg := rfl
@[simp] theorem State.setV_image (x : Reg) (b : Byte) : (s.setV x b).image = s.image := rfl
@[simp] theorem State.setV_keysIn (x : Reg) (b : Byte) : (s.setV x b).keysIn = s.keysIn := rfl
@[simp] theorem State.setV_hostCtl (x : Reg) (b : Byte) : (s.setV x b).hostCtl = s.hostCtl := rfl
@[simp] theorem State.setV_randIn (x : Reg) (b : Byte) : (s.setV x b).randIn = s.randIn := rfl
@[simp] theorem State.setV_freeCtr (x : Reg) (b : Byte) : (s.setV x b).freeCtr = s.freeCtr := rfl
@[simp] theorem State.setV_out (x : Reg) (b : Byte) : (s.setV x b).out = s.out := rfl

/-! `setAllV` -/

@[simp] theorem State.setAllV_v (w : Vector Byte 16) : (s.setAllV w).v = w := rfl
@[simp] theorem State.setAllV_i (w : Vector Byte 16) : (s.setAllV w).i = s.i := rfl
@[simp] theorem State.setAllV_pc (w : Vector Byte 16) : (s.setAllV w).pc = s.pc := rfl
@[simp] theorem State.setAllV_sp (w : Vector Byte 16) : (s.setAllV w).sp = s.sp := rfl
@[simp] theorem State.setAllV_stack (w : Vector Byte 16) : (s.setAllV w).stack = s.stack := rfl
@[simp] theorem State.setAllV_dt (w : Vector Byte 16) : (s.setAllV w).dt = s.dt := rfl
@[simp] theorem State.setAllV_st (w : Vector Byte 16) : (s.setAllV w).st = s.st := rfl
@[simp] theorem State.setAllV_mem (w : Vector Byte 16) : (s.setAllV w).mem = s.mem := rfl
@[simp] theorem State.setAllV_disp (w : Vector Byte 16) : (s.setAllV w).disp = s.disp := rfl
@[simp] theorem State.setAllV_dirty (w : Vector Byte 16) : (s.setAllV w).dirty = s.dirty := rfl
@[simp] theorem State.setAllV_keys (w : Vector Byte 16) : (s.setAllV w).keys = s.keys := rfl
@[simp] theorem State.setAllV_icount (w : Vector Byte 16) : (s.setAllV w).icount = s.icount := rfl
@[simp] theorem State.setAllV_halt (w : Vector Byte 16) : (s.setAllV w).halt = s.halt := rfl
@[simp] theorem State.setAllV_cfg (w : Vector Byte 16) : (s.setAllV w).cfg = s.cfg := rfl
@[simp] theorem State.setAllV_image (w : Vector Byte 16) : (s.setAllV w).image = s.image := rfl
@[simp] theorem State.setAllV_keysIn (w : Vector Byte 16) : (s.setAllV w).keysIn = s.keysIn := rfl
@[simp] theorem State.setAllV_hostCtl (w : Vector Byte 16) : (s.setAllV w).hostCtl = s.hostCtl := rfl
@[simp] theorem State.setAllV_randIn (w : Vector Byte 16) : (s.setAllV w).randIn = s.randIn := rfl
@[simp] theorem State.setAllV_freeCtr (w : Vector Byte 16) : (s.setAllV w).freeCtr = s.freeCtr := rfl
@[simp] theorem State.setAllV_out (w : Vector Byte 16) : (s.setAllV w).out = s.out := rfl

/-! `setI` -/

@[simp] theorem State.setI_v (w : Word) : (s.setI w).v = s.v := rfl
@[simp] theorem State.setI_i (w : Word) : (s.setI w).i = w := rfl
@[simp] theorem State.setI_pc (w : Word) : (s.setI w).pc = s.pc := rfl
@[simp] theorem State.setI_sp (w : Word) : (s.setI w).sp = s.sp := rfl
@[simp] theorem State.setI_stack (w : Word) : (s.setI w).stack = s.stack := rfl
@[simp] theorem State.setI_dt (w : Word) : (s.setI w).dt = s.dt := rfl
@[simp] theorem State.setI_st (w : Word) : (s.setI w).st = s.st := rfl
@[simp] theorem State.setI_mem (w : Word) : (s.setI w).mem = s.mem := rfl
@[simp] theorem State.setI_disp (w : Word) : (s.setI w).disp = s.disp := rfl
@[simp] theorem State.setI_dirty (w : Word) : (s.setI w).dirty = s.dirty := rfl
@[simp] theorem State.setI_keys (w : Word) : (s.setI w).keys = s.keys := rfl
@[simp] theorem State.setI_icount (w : Word) : (s.setI w).icount = s.icount := rfl
@[simp] theorem State.setI_halt (w : Word) : (s.setI w).halt = s.halt := rfl
@[simp] theorem State.setI_cfg (w : Word) : (s.setI w).cfg = s.cfg := rfl
@[simp] theorem State.setI_image (w : Word) : (s.setI w).image = s.image := rfl
@[simp] theorem State.setI_keysIn (w : Word) : (s.setI w).keysIn = s.keysIn := rfl
@[simp] theorem State.setI_hostCtl (w : Word) : (s.setI w).hostCtl = s.hostCtl := rfl
@[simp] theorem State.setI_randIn (w : Word) : (s.setI w).randIn = s.randIn := rfl
@[simp] theorem State.setI_freeCtr (w : Word) : (s.setI w).freeCtr = s.freeCtr := rfl
@[simp] theorem State.setI_out (w : Word) : (s.setI w).out = s.out := rfl

/-! `setPc` -/

@[simp] theorem State.setPc_v (w : Word) : (s.setPc w).v = s.v := rfl
@[simp] theorem State.setPc_i (w : Word) : (s.setPc w).i = s.i := rfl
@[simp] theorem State.setPc_pc (w : Word) : (s.setPc w).pc = w := rfl
@[simp] theorem State.setPc_sp (w : Word) : (s.setPc w).sp = s.sp := rfl
@[simp] theorem State.setPc_stack (w : Word) : (s.setPc w).stack = s.stack := rfl
@[simp] theorem State.setPc_dt (w : Word) : (s.setPc w).dt = s.dt := rfl
@[simp] theorem State.setPc_st (w : Word) : (s.setPc w).st = s.st := rfl
@[simp] theorem State.setPc_mem (w : Word) : (s.setPc w).mem = s.mem := rfl
@[simp] theorem State.setPc_disp (w : Word) : (s.setPc w).disp = s.disp := rfl
@[simp] theorem State.setPc_dirty (w : Word) : (s.setPc w).dirty = s.dirty := rfl
@[simp] theorem State.setPc_keys (w : Word) : (s.setPc w).keys = s.keys := rfl
@[simp] theorem State.setPc_icount (w : Word) : (s.setPc w).icount = s.icount := rfl
@[simp] theorem State.setPc_halt (w : Word) : (s.setPc w).halt = s.halt := rfl
@[simp] theorem State.setPc_cfg (w : Word) : (s.setPc w).cfg = s.cfg := rfl
@[simp] theorem State.setPc_image (w : Word) : (s.setPc w).image = s.image := rfl
@[simp] theorem State.setPc_keysIn (w : Word) : (s.setPc w).keysIn = s.keysIn := rfl
@[simp] theorem State.setPc_hostCtl (w : Word) : (s.setPc w).hostCtl = s.hostCtl := rfl
@[simp] theorem State.setPc_randIn (w : Word) : (s.setPc w).randIn = s.randIn := rfl
@[simp] theorem State.setPc_freeCtr (w : Word) : (s.setPc w).freeCtr = s.freeCtr := rfl
@[simp] theorem State.setPc_out (w : Word) : (s.setPc w).out = s.out := rfl

/-! `advance` -/

@[simp] theorem State.advance_v (n : Word) : (s.advance n).v = s.v := rfl
@[simp] theorem State.advance_i (n : Word) : (s.advance n).i = s.i := rfl
@[simp] theorem State.advance_pc (n : Word) : (s.advance n).pc = s.pc + n := rfl
@[simp] theorem State.advance_sp (n : Word) : (s.advance n).sp = s.sp := rfl
@[simp] theorem State.advance_stack (n : Word) : (s.advance n).stack = s.stack := rfl
@[simp] theorem State.advance_dt (n : Word) : (s.advance n).dt = s.dt := rfl
@[simp] theorem State.advance_st (n : Word) : (s.advance n).st = s.st := rfl
@[simp] theorem State.advance_mem (n : Word) : (s.advance n).mem = s.mem := rfl
@[simp] theorem State.advance_disp (n : Word) : (s.advance n).disp = s.disp := rfl
@[simp] theorem State.advance_dirty (n : Word) : (s.advance n).dirty = s.dirty := rfl
@[simp] theorem State.advance_keys (n : Word) : (s.advance n).keys = s.keys := rfl
@[simp] theorem State.advance_icount (n : Word) : (s.advance n).icount = s.icount := rfl
@[simp] theorem State.advance_halt (n : Word) : (s.advance n).halt = s.halt := rfl
@[simp] theorem State.advance_cfg (n : Word) : (s.advance n).cfg = s.cfg := rfl
@[simp] theorem State.advance_image (n : Word) : (s.advance n).image = s.image := rfl
@[simp] theorem State.advance_keysIn (n : Word) : (s.advance n).keysIn = s.keysIn := rfl
@[simp] theorem State.advance_hostCtl (n : Word) : (s.advance n).hostCtl = s.hostCtl := rfl
@[simp] theorem State.advance_randIn (n : Word) : (s.advance n).randIn = s.randIn := rfl
@[simp] theorem State.advance_freeCtr (n : Word) : (s.advance n).freeCtr = s.freeCtr := rfl
@[simp] theorem State.advance_out (n : Word) : (s.advance n).out = s.out := rfl

/-! `skipIf` -/

@[simp] theorem State.skipIf_v (c : Bool) : (s.skipIf c).v = s.v := rfl
@[simp] theorem State.skipIf_i (c : Bool) : (s.skipIf c).i = s.i := rfl
@[simp] theorem State.skipIf_pc (c : Bool) : (s.skipIf c).pc = s.pc + if c then 4 else 2 := rfl
@[simp] theorem State.skipIf_sp (c : Bool) : (s.skipIf c).sp = s.sp := rfl
@[simp] theorem State.skipIf_stack (c : Bool) : (s.skipIf c).stack = s.stack := rfl
@[simp] theorem State.skipIf_dt (c : Bool) : (s.skipIf c).dt = s.dt := rfl
@[simp] theorem State.skipIf_st (c : Bool) : (s.skipIf c).st = s.st := rfl
@[simp] theorem State.skipIf_mem (c : Bool) : (s.skipIf c).mem = s.mem := rfl
@[simp] theorem State.skipIf_disp (c : Bool) : (s.skipIf c).disp = s.disp := rfl
@[simp] theorem State.skipIf_dirty (c : Bool) : (s.skipIf c).dirty = s.dirty := rfl
@[simp] theorem State.skipIf_keys (c : Bool) : (s.skipIf c).keys = s.keys := rfl
@[simp] theorem State.skipIf_icount (c : Bool) : (s.skipIf c).icount = s.icount := rfl
@[simp] theorem State.skipIf_halt (c : Bool) : (s.skipIf c).halt = s.halt := rfl
@[simp] theorem State.skipIf_cfg (c : Bool) : (s.skipIf c).cfg = s.cfg := rfl
@[simp] theorem State.skipIf_image (c : Bool) : (s.skipIf c).image = s.image := rfl
@[simp] theorem State.skipIf_keysIn (c : Bool) : (s.skipIf c).keysIn = s.keysIn := rfl
@[simp] theorem State.skipIf_hostCtl (c : Bool) : (s.skipIf c).hostCtl = s.hostCtl := rfl
@[simp] theorem State.skipIf_randIn (c : Bool) : (s.skipIf c).randIn = s.randIn := rfl
@[simp] theorem State.skipIf_freeCtr (c : Bool) : (s.skipIf c).freeCtr = s.freeCtr := rfl
@[simp] theorem State.skipIf_out (c : Bool) : (s.skipIf c).out = s.out := rfl

/-! `setDt` -/

@[simp] theorem State.setDt_v (b : Byte) : (s.setDt b).v = s.v := rfl
@[simp] theorem State.setDt_i (b : Byte) : (s.setDt b).i = s.i := rfl
@[simp] theorem State.setDt_pc (b : Byte) : (s.setDt b).pc = s.pc := rfl
@[simp] theorem State.setDt_sp (b : Byte) : (s.setDt b).sp = s.sp := rfl
@[simp] theorem State.setDt_stack (b : Byte) : (s.setDt b).stack = s.stack := rfl
@[simp] theorem State.setDt_dt (b : Byte) : (s.setDt b).dt = b := rfl
@[simp] theorem State.setDt_st (b : Byte) : (s.setDt b).st = s.st := rfl
@[simp] theorem State.setDt_mem (b : Byte) : (s.setDt b).mem = s.mem := rfl
@[simp] theorem State.setDt_disp (b : Byte) : (s.setDt b).disp = s.disp := rfl
@[simp] theorem State.setDt_dirty (b : Byte) : (s.setDt b).dirty = s.dirty := rfl
@[simp] theorem State.setDt_keys (b : Byte) : (s.setDt b).keys = s.keys := rfl
@[simp] theorem State.setDt_icount (b : Byte) : (s.setDt b).icount = s.icount := rfl
@[simp] theorem State.setDt_halt (b : Byte) : (s.setDt b).halt = s.halt := rfl
@[simp] theorem State.setDt_cfg (b : Byte) : (s.setDt b).cfg = s.cfg := rfl
@[simp] theorem State.setDt_image (b : Byte) : (s.setDt b).image = s.image := rfl
@[simp] theorem State.setDt_keysIn (b : Byte) : (s.setDt b).keysIn = s.keysIn := rfl
@[simp] theorem State.setDt_hostCtl (b : Byte) : (s.setDt b).hostCtl = s.hostCtl := rfl
@[simp] theorem State.setDt_randIn (b : Byte) : (s.setDt b).randIn = s.randIn := rfl
@[simp] theorem State.setDt_freeCtr (b : Byte) : (s.setDt b).freeCtr = s.freeCtr := rfl
@[simp] theorem State.setDt_out (b : Byte) : (s.setDt b).out = s.out := rfl

/-! `setSt` -/

@[simp] theorem State.setSt_v (b : Byte) : (s.setSt b).v = s.v := rfl
@[simp] theorem State.setSt_i (b : Byte) : (s.setSt b).i = s.i := rfl
@[simp] theorem State.setSt_pc (b : Byte) : (s.setSt b).pc = s.pc := rfl
@[simp] theorem State.setSt_sp (b : Byte) : (s.setSt b).sp = s.sp := rfl
@[simp] theorem State.setSt_stack (b : Byte) : (s.setSt b).stack = s.stack := rfl
@[simp] theorem State.setSt_dt (b : Byte) : (s.setSt b).dt = s.dt := rfl
@[simp] theorem State.setSt_st (b : Byte) : (s.setSt b).st = b := rfl
@[simp] theorem State.setSt_mem (b : Byte) : (s.setSt b).mem = s.mem := rfl
@[simp] theorem State.setSt_disp (b : Byte) : (s.setSt b).disp = s.disp := rfl
@[simp] theorem State.setSt_dirty (b : Byte) : (s.setSt b).dirty = s.dirty := rfl
@[simp] theorem State.setSt_keys (b : Byte) : (s.setSt b).keys = s.keys := rfl
@[simp] theorem State.setSt_icount (b : Byte) : (s.setSt b).icount = s.icount := rfl
@[simp] theorem State.setSt_halt (b : Byte) : (s.setSt b).halt = s.halt := rfl
@[simp] theorem State.setSt_cfg (b : Byte) : (s.setSt b).cfg = s.cfg := rfl
@[simp] theorem State.setSt_image (b : Byte) : (s.setSt b).image = s.image := rfl
@[simp] theorem State.setSt_keysIn (b : Byte) : (s.setSt b).keysIn = s.keysIn := rfl
@[simp] theorem State.setSt_hostCtl (b : Byte) : (s.setSt b).hostCtl = s.hostCtl := rfl
@[simp] theorem State.setSt_randIn (b : Byte) : (s.setSt b).randIn = s.randIn := rfl
@[simp] theorem State.setSt_freeCtr (b : Byte) : (s.setSt b).freeCtr = s.freeCtr := rfl
@[simp] theorem State.setSt_out (b : Byte) : (s.setSt b).out = s.out := rfl

/-! `paint` -/

@[simp] theorem State.paint_v (d : Vector DispRow 32) : (s.paint d).v = s.v := rfl
@[simp] theorem State.paint_i (d : Vector DispRow 32) : (s.paint d).i = s.i := rfl
@[simp] theorem State.paint_pc (d : Vector DispRow 32) : (s.paint d).pc = s.pc := rfl
@[simp] theorem State.paint_sp (d : Vector DispRow 32) : (s.paint d).sp = s.sp := rfl
@[simp] theorem State.paint_stack (d : Vector DispRow 32) : (s.paint d).stack = s.stack := rfl
@[simp] theorem State.paint_dt (d : Vector DispRow 32) : (s.paint d).dt = s.dt := rfl
@[simp] theorem State.paint_st (d : Vector DispRow 32) : (s.paint d).st = s.st := rfl
@[simp] theorem State.paint_mem (d : Vector DispRow 32) : (s.paint d).mem = s.mem := rfl
@[simp] theorem State.paint_disp (d : Vector DispRow 32) : (s.paint d).disp = d := rfl
@[simp] theorem State.paint_dirty (d : Vector DispRow 32) : (s.paint d).dirty = true := rfl
@[simp] theorem State.paint_keys (d : Vector DispRow 32) : (s.paint d).keys = s.keys := rfl
@[simp] theorem State.paint_icount (d : Vector DispRow 32) : (s.paint d).icount = s.icount := rfl
@[simp] theorem State.paint_halt (d : Vector DispRow 32) : (s.paint d).halt = s.halt := rfl
@[simp] theorem State.paint_cfg (d : Vector DispRow 32) : (s.paint d).cfg = s.cfg := rfl
@[simp] theorem State.paint_image (d : Vector DispRow 32) : (s.paint d).image = s.image := rfl
@[simp] theorem State.paint_keysIn (d : Vector DispRow 32) : (s.paint d).keysIn = s.keysIn := rfl
@[simp] theorem State.paint_hostCtl (d : Vector DispRow 32) : (s.paint d).hostCtl = s.hostCtl := rfl
@[simp] theorem State.paint_randIn (d : Vector DispRow 32) : (s.paint d).randIn = s.randIn := rfl
@[simp] theorem State.paint_freeCtr (d : Vector DispRow 32) : (s.paint d).freeCtr = s.freeCtr := rfl
@[simp] theorem State.paint_out (d : Vector DispRow 32) : (s.paint d).out = s.out := rfl

/-! `setWithFlag` -/

@[simp] theorem State.setWithFlag_v (x : Reg) (b f : Byte) : (s.setWithFlag x b f).v = (s.v.set x.toNat b x.isLt).set 15 f := rfl
@[simp] theorem State.setWithFlag_i (x : Reg) (b f : Byte) : (s.setWithFlag x b f).i = s.i := rfl
@[simp] theorem State.setWithFlag_pc (x : Reg) (b f : Byte) : (s.setWithFlag x b f).pc = s.pc := rfl
@[simp] theorem State.setWithFlag_sp (x : Reg) (b f : Byte) : (s.setWithFlag x b f).sp = s.sp := rfl
@[simp] theorem State.setWithFlag_stack (x : Reg) (b f : Byte) : (s.setWithFlag x b f).stack = s.stack := rfl
@[simp] theorem State.setWithFlag_dt (x : Reg) (b f : Byte) : (s.setWithFlag x b f).dt = s.dt := rfl
@[simp] theorem State.setWithFlag_st (x : Reg) (b f : Byte) : (s.setWithFlag x b f).st = s.st := rfl
@[simp] theorem State.setWithFlag_mem (x : Reg) (b f : Byte) : (s.setWithFlag x b f).mem = s.mem := rfl
@[simp] theorem State.setWithFlag_disp (x : Reg) (b f : Byte) : (s.setWithFlag x b f).disp = s.disp := rfl
@[simp] theorem State.setWithFlag_dirty (x : Reg) (b f : Byte) : (s.setWithFlag x b f).dirty = s.dirty := rfl
@[simp] theorem State.setWithFlag_keys (x : Reg) (b f : Byte) : (s.setWithFlag x b f).keys = s.keys := rfl
@[simp] theorem State.setWithFlag_icount (x : Reg) (b f : Byte) : (s.setWithFlag x b f).icount = s.icount := rfl
@[simp] theorem State.setWithFlag_halt (x : Reg) (b f : Byte) : (s.setWithFlag x b f).halt = s.halt := rfl
@[simp] theorem State.setWithFlag_cfg (x : Reg) (b f : Byte) : (s.setWithFlag x b f).cfg = s.cfg := rfl
@[simp] theorem State.setWithFlag_image (x : Reg) (b f : Byte) : (s.setWithFlag x b f).image = s.image := rfl
@[simp] theorem State.setWithFlag_keysIn (x : Reg) (b f : Byte) : (s.setWithFlag x b f).keysIn = s.keysIn := rfl
@[simp] theorem State.setWithFlag_hostCtl (x : Reg) (b f : Byte) : (s.setWithFlag x b f).hostCtl = s.hostCtl := rfl
@[simp] theorem State.setWithFlag_randIn (x : Reg) (b f : Byte) : (s.setWithFlag x b f).randIn = s.randIn := rfl
@[simp] theorem State.setWithFlag_freeCtr (x : Reg) (b f : Byte) : (s.setWithFlag x b f).freeCtr = s.freeCtr := rfl
@[simp] theorem State.setWithFlag_out (x : Reg) (b f : Byte) : (s.setWithFlag x b f).out = s.out := rfl

/-! `timerTick` -/

@[simp] theorem State.timerTick_v : s.timerTick.v = s.v := rfl
@[simp] theorem State.timerTick_i : s.timerTick.i = s.i := rfl
@[simp] theorem State.timerTick_pc : s.timerTick.pc = s.pc := rfl
@[simp] theorem State.timerTick_sp : s.timerTick.sp = s.sp := rfl
@[simp] theorem State.timerTick_stack : s.timerTick.stack = s.stack := rfl
@[simp] theorem State.timerTick_dt : s.timerTick.dt = countDown s.dt := rfl
@[simp] theorem State.timerTick_st : s.timerTick.st = countDown s.st := rfl
@[simp] theorem State.timerTick_mem : s.timerTick.mem = s.mem := rfl
@[simp] theorem State.timerTick_disp : s.timerTick.disp = s.disp := rfl
@[simp] theorem State.timerTick_dirty : s.timerTick.dirty = s.dirty := rfl
@[simp] theorem State.timerTick_keys : s.timerTick.keys = s.keys := rfl
@[simp] theorem State.timerTick_icount : s.timerTick.icount = s.icount := rfl
@[simp] theorem State.timerTick_halt : s.timerTick.halt = s.halt := rfl
@[simp] theorem State.timerTick_cfg : s.timerTick.cfg = s.cfg := rfl
@[simp] theorem State.timerTick_image : s.timerTick.image = s.image := rfl
@[simp] theorem State.timerTick_keysIn : s.timerTick.keysIn = s.keysIn := rfl
@[simp] theorem State.timerTick_hostCtl : s.timerTick.hostCtl = s.hostCtl := rfl
@[simp] theorem State.timerTick_randIn : s.timerTick.randIn = s.randIn := rfl
@[simp] theorem State.timerTick_freeCtr : s.timerTick.freeCtr = s.freeCtr := rfl
@[simp] theorem State.timerTick_out : s.timerTick.out = s.out ++ (if s.st = 1 then [.audioCue] else []) := rfl

/-! `renderTick` -/

@[simp] theorem State.renderTick_v : s.renderTick.v = s.v := rfl
@[simp] theorem State.renderTick_i : s.renderTick.i = s.i := rfl
@[simp] theorem State.renderTick_pc : s.renderTick.pc = s.pc := rfl
@[simp] theorem State.renderTick_sp : s.renderTick.sp = s.sp := rfl
@[simp] theorem State.renderTick_stack : s.renderTick.stack = s.stack := rfl
@[simp] theorem State.renderTick_dt : s.renderTick.dt = s.dt := rfl
@[simp] theorem State.renderTick_st : s.renderTick.st = s.st := rfl
@[simp] theorem State.renderTick_mem : s.renderTick.mem = s.mem := rfl
@[simp] theorem State.renderTick_disp : s.renderTick.disp = s.disp := rfl
@[simp] theorem State.renderTick_dirty : s.renderTick.dirty = false := rfl
@[simp] theorem State.renderTick_keys : s.renderTick.keys = s.keys := rfl
@[simp] theorem State.renderTick_icount : s.renderTick.icount = s.icount := rfl
@[simp] theorem State.renderTick_halt : s.renderTick.halt = s.halt := rfl
@[simp] theorem State.renderTick_cfg : s.renderTick.cfg = s.cfg := rfl
@[simp] theorem State.renderTick_image : s.renderTick.image = s.image := rfl
@[simp] theorem State.renderTick_keysIn : s.renderTick.keysIn = s.keysIn := rfl
@[simp] theorem State.renderTick_hostCtl : s.renderTick.hostCtl = s.hostCtl := rfl
@[simp] theorem State.renderTick_randIn : s.renderTick.randIn = s.randIn := rfl
@[simp] theorem State.renderTick_freeCtr : s.renderTick.freeCtr = s.freeCtr := rfl
@[simp] theorem State.renderTick_out : s.renderTick.out = s.out ++ (if s.dirty then [.render] else []) := rfl

/-! `sampled` -/

@[simp] theorem State.sampled_v : s.sampled.v = s.v := rfl
@[simp] theorem State.sampled_i : s.sampled.i = s.i := rfl
@[simp] theorem State.sampled_pc : s.sampled.pc = s.pc := rfl
@[simp] theorem State.sampled_sp : s.sampled.sp = s.sp := rfl
@[simp] theorem State.sampled_stack : s.sampled.stack = s.stack := rfl
@[simp] theorem State.sampled_dt : s.sampled.dt = s.dt := rfl
@[simp] theorem State.sampled_st : s.sampled.st = s.st := rfl
@[simp] theorem State.sampled_mem : s.sampled.mem = s.mem := rfl
@[simp] theorem State.sampled_disp : s.sampled.disp = s.disp := rfl
@[simp] theorem State.sampled_dirty : s.sampled.dirty = s.dirty := rfl
@[simp] theorem State.sampled_keys : s.sampled.keys = s.keys := rfl
@[simp] theorem State.sampled_icount : s.sampled.icount = s.icount := rfl
@[simp] theorem State.sampled_halt : s.sampled.halt = s.halt := rfl
@[simp] theorem State.sampled_cfg : s.sampled.cfg = s.cfg := rfl
@[simp] theorem State.sampled_image : s.sampled.image = s.image := rfl
@[simp] theorem State.sampled_keysIn : s.sampled.keysIn = s.keysIn := rfl
@[simp] theorem State.sampled_hostCtl : s.sampled.hostCtl = s.hostCtl.tail := rfl
@[simp] theorem State.sampled_randIn : s.sampled.randIn = s.randIn := rfl
@[simp] theorem State.sampled_freeCtr : s.sampled.freeCtr = s.freeCtr := rfl
@[simp] theorem State.sampled_out : s.sampled.out = [] := rfl

/-! `quit` -/

@[simp] theorem State.quit_v : s.quit.v = s.v := rfl
@[simp] theorem State.quit_i : s.quit.i = s.i := rfl
@[simp] theorem State.quit_pc : s.quit.pc = s.pc := rfl
@[simp] theorem State.quit_sp : s.quit.sp = s.sp := rfl
@[simp] theorem State.quit_stack : s.quit.stack = s.stack := rfl
@[simp] theorem State.quit_dt : s.quit.dt = s.dt := rfl
@[simp] theorem State.quit_st : s.quit.st = s.st := rfl
@[simp] theorem State.quit_mem : s.quit.mem = s.mem := rfl
@[simp] theorem State.quit_disp : s.quit.disp = s.disp := rfl
@[simp] theorem State.quit_dirty : s.quit.dirty = s.dirty := rfl
@[simp] theorem State.quit_keys : s.quit.keys = s.keys := rfl
@[simp] theorem State.quit_icount : s.quit.icount = s.icount := rfl
@[simp] theorem State.quit_halt : s.quit.halt = if s.halt = .running then .stopped else s.halt := rfl
@[simp] theorem State.quit_cfg : s.quit.cfg = s.cfg := rfl
@[simp] theorem State.quit_image : s.quit.image = s.image := rfl
@[simp] theorem State.quit_keysIn : s.quit.keysIn = s.keysIn := rfl
@[simp] theorem State.quit_hostCtl : s.quit.hostCtl = s.hostCtl := rfl
@[simp] theorem State.quit_randIn : s.quit.randIn = s.randIn := rfl
@[simp] theorem State.quit_freeCtr : s.quit.freeCtr = s.freeCtr := rfl
@[simp] theorem State.quit_out : s.quit.out = s.out := rfl

/-! `loadProgram` -/

@[simp] theorem State.loadProgram_v (p : List Byte) : (s.loadProgram p).v = s.v := rfl
@[simp] theorem State.loadProgram_i (p : List Byte) : (s.loadProgram p).i = s.i := rfl
@[simp] theorem State.loadProgram_pc (p : List Byte) : (s.loadProgram p).pc = s.pc := rfl
@[simp] theorem State.loadProgram_sp (p : List Byte) : (s.loadProgram p).sp = s.sp := rfl
@[simp] theorem State.loadProgram_stack (p : List Byte) : (s.loadProgram p).stack = s.stack := rfl
@[simp] theorem State.loadProgram_dt (p : List Byte) : (s.loadProgram p).dt = s.dt := rfl
@[simp] theorem State.loadProgram_st (p : List Byte) : (s.loadProgram p).st = s.st := rfl
@[simp] theorem State.loadProgram_mem (p : List Byte) : (s.loadProgram p).mem = Memory.writeList s.cfg.font programBase p s.mem := rfl
@[simp] theorem State.loadProgram_disp (p : List Byte) : (s.loadProgram p).disp = s.disp := rfl
@[simp] theorem State.loadProgram_dirty (p : List Byte) : (s.loadProgram p).dirty = s.dirty := rfl
@[simp] theorem State.loadProgram_keys (p : List Byte) : (s.loadProgram p).keys = s.keys := rfl
@[simp] theorem State.loadProgram_icount (p : List Byte) : (s.loadProgram p).icount = s.icount := rfl
@[simp] theorem State.loadProgram_halt (p : List Byte) : (s.loadProgram p).halt = s.halt := rfl
@[simp] theorem State.loadProgram_cfg (p : List Byte) : (s.loadProgram p).cfg = s.cfg := rfl
@[simp] theorem State.loadProgram_image (p : List Byte) : (s.loadProgram p).image = p := rfl
@[simp] theorem State.loadProgram_keysIn (p : List Byte) : (s.loadProgram p).keysIn = s.keysIn := rfl
@[simp] theorem State.loadProgram_hostCtl (p : List Byte) : (s.loadProgram p).hostCtl = s.hostCtl := rfl
@[simp] theorem State.loadProgram_randIn (p : List Byte) : (s.loadProgram p).randIn = s.randIn := rfl
@[simp] theorem State.loadProgram_freeCtr (p : List Byte) : (s.loadProgram p).freeCtr = s.freeCtr := rfl
@[simp] theorem State.loadProgram_out (p : List Byte) : (s.loadProgram p).out = s.out := rfl

/-! `takeFault` -/

@[simp] theorem State.takeFault_v (c : Fault) : (s.takeFault c).v = (Config.afterHalt s).v := rfl
@[simp] theorem State.takeFault_i (c : Fault) : (s.takeFault c).i = (Config.afterHalt s).i := rfl
@[simp] theorem State.takeFault_pc (c : Fault) : (s.takeFault c).pc = (Config.afterHalt s).pc := rfl
@[simp] theorem State.takeFault_sp (c : Fault) : (s.takeFault c).sp = (Config.afterHalt s).sp := rfl
@[simp] theorem State.takeFault_stack (c : Fault) : (s.takeFault c).stack = (Config.afterHalt s).stack := rfl
@[simp] theorem State.takeFault_dt (c : Fault) : (s.takeFault c).dt = (Config.afterHalt s).dt := rfl
@[simp] theorem State.takeFault_st (c : Fault) : (s.takeFault c).st = (Config.afterHalt s).st := rfl
@[simp] theorem State.takeFault_mem (c : Fault) : (s.takeFault c).mem = Memory.ofFun s.cfg.font (Memory.read s.cfg.font (Config.afterHalt s).mem) := rfl
@[simp] theorem State.takeFault_disp (c : Fault) : (s.takeFault c).disp = (Config.afterHalt s).disp := rfl
@[simp] theorem State.takeFault_dirty (c : Fault) : (s.takeFault c).dirty = (Config.afterHalt s).dirty := rfl
@[simp] theorem State.takeFault_keys (c : Fault) : (s.takeFault c).keys = (Config.afterHalt s).keys := rfl
@[simp] theorem State.takeFault_icount (c : Fault) : (s.takeFault c).icount = (Config.afterHalt s).icount % s.cfg.divisor := rfl
@[simp] theorem State.takeFault_halt (c : Fault) : (s.takeFault c).halt = .halted c := rfl
@[simp] theorem State.takeFault_cfg (c : Fault) : (s.takeFault c).cfg = s.cfg := rfl
@[simp] theorem State.takeFault_image (c : Fault) : (s.takeFault c).image = s.image := rfl
@[simp] theorem State.takeFault_keysIn (c : Fault) : (s.takeFault c).keysIn = s.keysIn := rfl
@[simp] theorem State.takeFault_hostCtl (c : Fault) : (s.takeFault c).hostCtl = s.hostCtl := rfl
@[simp] theorem State.takeFault_randIn (c : Fault) : (s.takeFault c).randIn = s.randIn := rfl
@[simp] theorem State.takeFault_freeCtr (c : Fault) : (s.takeFault c).freeCtr = s.freeCtr := rfl
@[simp] theorem State.takeFault_out (c : Fault) : (s.takeFault c).out = [] := rfl

/-! `reinit` -/

@[simp] theorem State.reinit_v : s.reinit.v = State.reset.v := rfl
@[simp] theorem State.reinit_i : s.reinit.i = State.reset.i := rfl
@[simp] theorem State.reinit_pc : s.reinit.pc = State.reset.pc := rfl
@[simp] theorem State.reinit_sp : s.reinit.sp = State.reset.sp := rfl
@[simp] theorem State.reinit_stack : s.reinit.stack = State.reset.stack := rfl
@[simp] theorem State.reinit_dt : s.reinit.dt = State.reset.dt := rfl
@[simp] theorem State.reinit_st : s.reinit.st = State.reset.st := rfl
@[simp] theorem State.reinit_mem : s.reinit.mem = s.mem := rfl
@[simp] theorem State.reinit_disp : s.reinit.disp = State.reset.disp := rfl
@[simp] theorem State.reinit_dirty : s.reinit.dirty = State.reset.dirty := rfl
@[simp] theorem State.reinit_keys : s.reinit.keys = State.reset.keys := rfl
@[simp] theorem State.reinit_icount : s.reinit.icount = State.reset.icount := rfl
@[simp] theorem State.reinit_halt : s.reinit.halt = State.reset.halt := rfl
@[simp] theorem State.reinit_cfg : s.reinit.cfg = s.cfg := rfl
@[simp] theorem State.reinit_image : s.reinit.image = s.image := rfl
@[simp] theorem State.reinit_keysIn : s.reinit.keysIn = s.keysIn := rfl
@[simp] theorem State.reinit_hostCtl : s.reinit.hostCtl = s.hostCtl := rfl
@[simp] theorem State.reinit_randIn : s.reinit.randIn = s.randIn := rfl
@[simp] theorem State.reinit_freeCtr : s.reinit.freeCtr = s.freeCtr := rfl
@[simp] theorem State.reinit_out : s.reinit.out = s.out := rfl

/-! `push`: the fields no branch of it touches -/

@[simp] theorem State.push_v : s.push.v = s.v := by unfold State.push; split <;> rfl
@[simp] theorem State.push_i : s.push.i = s.i := by unfold State.push; split <;> rfl
@[simp] theorem State.push_pc : s.push.pc = s.pc := by unfold State.push; split <;> rfl
@[simp] theorem State.push_dt : s.push.dt = s.dt := by unfold State.push; split <;> rfl
@[simp] theorem State.push_st : s.push.st = s.st := by unfold State.push; split <;> rfl
@[simp] theorem State.push_mem : s.push.mem = s.mem := by unfold State.push; split <;> rfl
@[simp] theorem State.push_disp : s.push.disp = s.disp := by unfold State.push; split <;> rfl
@[simp] theorem State.push_dirty : s.push.dirty = s.dirty := by unfold State.push; split <;> rfl
@[simp] theorem State.push_keys : s.push.keys = s.keys := by unfold State.push; split <;> rfl
@[simp] theorem State.push_icount : s.push.icount = s.icount := by unfold State.push; split <;> rfl
@[simp] theorem State.push_halt : s.push.halt = s.halt := by unfold State.push; split <;> rfl
@[simp] theorem State.push_cfg : s.push.cfg = s.cfg := by unfold State.push; split <;> rfl
@[simp] theorem State.push_image : s.push.image = s.image := by unfold State.push; split <;> rfl
@[simp] theorem State.push_keysIn : s.push.keysIn = s.keysIn := by unfold State.push; split <;> rfl
@[simp] theorem State.push_hostCtl : s.push.hostCtl = s.hostCtl := by unfold State.push; split <;> rfl
@[simp] theorem State.push_randIn : s.push.randIn = s.randIn := by unfold State.push; split <;> rfl
@[simp] theorem State.push_freeCtr : s.push.freeCtr = s.freeCtr := by unfold State.push; split <;> rfl
@[simp] theorem State.push_out : s.push.out = s.out := by unfold State.push; split <;> rfl

/-! `pop`: the fields no branch of it touches -/

@[simp] theorem State.pop_v : s.pop.v = s.v := by unfold State.pop; split <;> rfl
@[simp] theorem State.pop_i : s.pop.i = s.i := by unfold State.pop; split <;> rfl
@[simp] theorem State.pop_stack : s.pop.stack = s.stack := by unfold State.pop; split <;> rfl
@[simp] theorem State.pop_dt : s.pop.dt = s.dt := by unfold State.pop; split <;> rfl
@[simp] theorem State.pop_st : s.pop.st = s.st := by unfold State.pop; split <;> rfl
@[simp] theorem State.pop_mem : s.pop.mem = s.mem := by unfold State.pop; split <;> rfl
@[simp] theorem State.pop_disp : s.pop.disp = s.disp := by unfold State.pop; split <;> rfl
@[simp] theorem State.pop_dirty : s.pop.dirty = s.dirty := by unfold State.pop; split <;> rfl
@[simp] theorem State.pop_keys : s.pop.keys = s.keys := by unfold State.pop; split <;> rfl
@[simp] theorem State.pop_icount : s.pop.icount = s.icount := by unfold State.pop; split <;> rfl
@[simp] theorem State.pop_halt : s.pop.halt = s.halt := by unfold State.pop; split <;> rfl
@[simp] theorem State.pop_cfg : s.pop.cfg = s.cfg := by unfold State.pop; split <;> rfl
@[simp] theorem State.pop_image : s.pop.image = s.image := by unfold State.pop; split <;> rfl
@[simp] theorem State.pop_keysIn : s.pop.keysIn = s.keysIn := by unfold State.pop; split <;> rfl
@[simp] theorem State.pop_hostCtl : s.pop.hostCtl = s.hostCtl := by unfold State.pop; split <;> rfl
@[simp] theorem State.pop_randIn : s.pop.randIn = s.randIn := by unfold State.pop; split <;> rfl
@[simp] theorem State.pop_freeCtr : s.pop.freeCtr = s.freeCtr := by unfold State.pop; split <;> rfl
@[simp] theorem State.pop_out : s.pop.out = s.out := by unfold State.pop; split <;> rfl

/-! `nextRand`: the fields no branch of it touches -/

@[simp] theorem State.nextRand_v : s.nextRand.v = s.v := by unfold State.nextRand; split <;> rfl
@[simp] theorem State.nextRand_i : s.nextRand.i = s.i := by unfold State.nextRand; split <;> rfl
@[simp] theorem State.nextRand_pc : s.nextRand.pc = s.pc := by unfold State.nextRand; split <;> rfl
@[simp] theorem State.nextRand_sp : s.nextRand.sp = s.sp := by unfold State.nextRand; split <;> rfl
@[simp] theorem State.nextRand_stack : s.nextRand.stack = s.stack := by unfold State.nextRand; split <;> rfl
@[simp] theorem State.nextRand_dt : s.nextRand.dt = s.dt := by unfold State.nextRand; split <;> rfl
@[simp] theorem State.nextRand_st : s.nextRand.st = s.st := by unfold State.nextRand; split <;> rfl
@[simp] theorem State.nextRand_mem : s.nextRand.mem = s.mem := by unfold State.nextRand; split <;> rfl
@[simp] theorem State.nextRand_disp : s.nextRand.disp = s.disp := by unfold State.nextRand; split <;> rfl
@[simp] theorem State.nextRand_dirty : s.nextRand.dirty = s.dirty := by unfold State.nextRand; split <;> rfl
@[simp] theorem State.nextRand_keys : s.nextRand.keys = s.keys := by unfold State.nextRand; split <;> rfl
@[simp] theorem State.nextRand_icount : s.nextRand.icount = s.icount := by unfold State.nextRand; split <;> rfl
@[simp] theorem State.nextRand_halt : s.nextRand.halt = s.halt := by unfold State.nextRand; split <;> rfl
@[simp] theorem State.nextRand_cfg : s.nextRand.cfg = s.cfg := by unfold State.nextRand; split <;> rfl
@[simp] theorem State.nextRand_image : s.nextRand.image = s.image := by unfold State.nextRand; split <;> rfl
@[simp] theorem State.nextRand_keysIn : s.nextRand.keysIn = s.keysIn := by unfold State.nextRand; split <;> rfl
@[simp] theorem State.nextRand_hostCtl : s.nextRand.hostCtl = s.hostCtl := by unfold State.nextRand; split <;> rfl
@[simp] theorem State.nextRand_out : s.nextRand.out = s.out := by unfold State.nextRand; split <;> rfl

/-! `applyKeys`: the fields no branch of it touches -/

@[simp] theorem State.applyKeys_v : s.applyKeys.v = s.v := by unfold State.applyKeys; split <;> rfl
@[simp] theorem State.applyKeys_i : s.applyKeys.i = s.i := by unfold State.applyKeys; split <;> rfl
@[simp] theorem State.applyKeys_pc : s.applyKeys.pc = s.pc := by unfold State.applyKeys; split <;> rfl
@[simp] theorem State.applyKeys_sp : s.applyKeys.sp = s.sp := by unfold State.applyKeys; split <;> rfl
@[simp] theorem State.applyKeys_stack : s.applyKeys.stack = s.stack := by unfold State.applyKeys; split <;> rfl
@[simp] theorem State.applyKeys_dt : s.applyKeys.dt = s.dt := by unfold State.applyKeys; split <;> rfl
@[simp] theorem State.applyKeys_st : s.applyKeys.st = s.st := by unfold State.applyKeys; split <;> rfl
@[simp] theorem State.applyKeys_mem : s.applyKeys.mem = s.mem := by unfold State.applyKeys; split <;> rfl
@[simp] theorem State.applyKeys_disp : s.applyKeys.disp = s.disp := by unfold State.applyKeys; split <;> rfl
@[simp] theorem State.applyKeys_dirty : s.applyKeys.dirty = s.dirty := by unfold State.applyKeys; split <;> rfl
@[simp] theorem State.applyKeys_icount : s.applyKeys.icount = s.icount := by unfold State.applyKeys; split <;> rfl
@[simp] theorem State.applyKeys_halt : s.applyKeys.halt = s.halt := by unfold State.applyKeys; split <;> rfl
@[simp] theorem State.applyKeys_cfg : s.applyKeys.cfg = s.cfg := by unfold State.applyKeys; split <;> rfl
@[simp] theorem State.applyKeys_image : s.applyKeys.image = s.image := by unfold State.applyKeys; split <;> rfl
@[simp] theorem State.applyKeys_hostCtl : s.applyKeys.hostCtl = s.hostCtl := by unfold State.applyKeys; split <;> rfl
@[simp] theorem State.applyKeys_randIn : s.applyKeys.randIn = s.randIn := by unfold State.applyKeys; split <;> rfl
@[simp] theorem State.applyKeys_freeCtr : s.applyKeys.freeCtr = s.freeCtr := by unfold State.applyKeys; split <;> rfl
@[simp] theorem State.applyKeys_out : s.applyKeys.out = s.out := by unfold State.applyKeys; split <;> rfl

/-! `countInstr`: the fields no branch of it touches -/

@[simp] theorem State.countInstr_v : s.countInstr.v = s.v := by unfold State.countInstr; split <;> rfl
@[simp] theorem State.countInstr_i : s.countInstr.i = s.i := by unfold State.countInstr; split <;> rfl
@[simp] theorem State.countInstr_pc : s.countInstr.pc = s.pc := by unfold State.countInstr; split <;> rfl
@[simp] theorem State.countInstr_sp : s.countInstr.sp = s.sp := by unfold State.countInstr; split <;> rfl
@[simp] theorem State.countInstr_stack : s.countInstr.stack = s.stack := by unfold State.countInstr; split <;> rfl
@[simp] theorem State.countInstr_mem : s.countInstr.mem = s.mem := by unfold State.countInstr; split <;> rfl
@[simp] theorem State.countInstr_disp : s.countInstr.disp = s.disp := by unfold State.countInstr; split <;> rfl
@[simp] theorem State.countInstr_keys : s.countInstr.keys = s.keys := by unfold State.countInstr; split <;> rfl
@[simp] theorem State.countInstr_halt : s.countInstr.halt = s.halt := by unfold State.countInstr; split <;> rfl
@[simp] theorem State.countInstr_cfg : s.countInstr.cfg = s.cfg := by unfold State.countInstr; split <;> rfl
@[simp] theorem State.countInstr_image : s.countInstr.image = s.image := by unfold State.countInstr; split <;> rfl
@[simp] theorem State.countInstr_keysIn : s.countInstr.keysIn = s.keysIn := by unfold State.countInstr; split <;> rfl
@[simp] theorem State.countInstr_hostCtl : s.countInstr.hostCtl = s.hostCtl := by unfold State.countInstr; split <;> rfl
@[simp] theorem State.countInstr_randIn : s.countInstr.randIn = s.randIn := by unfold State.countInstr; split <;> rfl
@[simp] theorem State.countInstr_freeCtr : s.countInstr.freeCtr = s.freeCtr := by unfold State.countInstr; split <;> rfl

end Sys2Proof.Machine
end

