-- ==== Sys2Proof/Laws/Registers.lean ====
section
/-! SUPPORT. Reads of the registers after each update, and the frame of each shared operation. -/

namespace Sys2Proof.Machine

variable (s : State)

/-! ### Registers -/

/-- A register read depends on `v` alone. -/
theorem State.getV_congr {s t : State} (h : t.v = s.v) (r : Reg) : t.getV r = s.getV r := by
  simp only [State.getV, h]

/-- A register write sets its own register and leaves every other one alone. -/
@[simp] theorem State.getV_setV (x : Reg) (b : Byte) (r : Reg) :
    (s.setV x b).getV r = if r = x then b else s.getV r := by
  simp only [State.getV, State.setV_v, Vector.getElem_set]
  by_cases h : r = x
  · simp [h]
  · rw [if_neg h, if_neg (fun e => h (BitVec.eq_of_toNat_eq e.symm))]

/-- The flag is written last, so it wins where X = 15 (R88). -/
@[simp] theorem State.getV_setWithFlag (x : Reg) (b f : Byte) (r : Reg) :
    (s.setWithFlag x b f).getV r = if r = regF then f else if r = x then b else s.getV r := by
  simp [State.setWithFlag]

@[simp] theorem State.getV_setI (w : Word) (r : Reg) : (s.setI w).getV r = s.getV r := rfl
@[simp] theorem State.getV_setPc (w : Word) (r : Reg) : (s.setPc w).getV r = s.getV r := rfl
@[simp] theorem State.getV_advance (n : Word) (r : Reg) : (s.advance n).getV r = s.getV r := rfl
@[simp] theorem State.getV_skipIf (c : Bool) (r : Reg) : (s.skipIf c).getV r = s.getV r := rfl
@[simp] theorem State.getV_setDt (b : Byte) (r : Reg) : (s.setDt b).getV r = s.getV r := rfl
@[simp] theorem State.getV_setSt (b : Byte) (r : Reg) : (s.setSt b).getV r = s.getV r := rfl
@[simp] theorem State.getV_paint (d : Vector DispRow 32) (r : Reg) : (s.paint d).getV r = s.getV r := rfl
@[simp] theorem State.getV_sampled (r : Reg) : s.sampled.getV r = s.getV r := rfl
@[simp] theorem State.getV_push (r : Reg) : s.push.getV r = s.getV r := State.getV_congr (by simp) r
@[simp] theorem State.getV_pop (r : Reg) : s.pop.getV r = s.getV r := State.getV_congr (by simp) r
@[simp] theorem State.getV_nextRand (r : Reg) : s.nextRand.getV r = s.getV r := State.getV_congr (by simp) r
@[simp] theorem State.getV_applyKeys (r : Reg) : s.applyKeys.getV r = s.getV r := State.getV_congr (by simp) r
@[simp] theorem State.getV_countInstr (r : Reg) : s.countInstr.getV r = s.getV r := State.getV_congr (by simp) r

/-- The registers FX65 leaves: VX takes byte k of the list, where there is one. -/
@[simp] theorem State.getV_withRange (bs : List Byte) (r : Reg) :
    (s.setAllV (s.withRange bs)).getV r = bs[r.toNat]?.getD (s.getV r) := by
  simp [State.getV, State.withRange]

/-- The bytes FX55 stores: register k at place k, for k up to X. -/
theorem State.regRange_getElem? (x : Reg) (k : Nat) :
    (s.regRange x)[k]? = if k ≤ x.toNat then s.v[k]? else none := by
  simp only [State.regRange, rangeCount, List.getElem?_take]
  by_cases h : k ≤ x.toNat
  · simp [h, Nat.lt_succ_of_le h]
  · simp [h]

@[simp] theorem State.regRange_length (x : Reg) : (s.regRange x).length = rangeCount x := by
  have : rangeCount x ≤ 16 := by have := x.isLt; simp only [rangeCount]; omega
  simp [State.regRange, this]

/-! ### The call stack -/

/-- Everything a push can do (R103). -/
theorem State.push_cases :
    (∃ h : s.sp.val < 15, s.push.sp.val = s.sp.val + 1 ∧ s.push.stack = s.stack.set s.sp.val s.pc (by omega)) ∨
      (s.sp.val = 15 ∧ s.push = s) := by
  unfold State.push
  split
  · rename_i h; exact Or.inl ⟨h, rfl, rfl⟩
  · exact Or.inr ⟨by omega, rfl⟩

/-- Everything a pop can do (R101). -/
theorem State.pop_cases :
    (∃ h : 0 < s.sp.val, s.pop.sp.val = s.sp.val - 1 ∧ s.pop.pc = s.stack[s.sp.val - 1]'(by omega) + 2) ∨
      (s.sp.val = 0 ∧ s.pop = s.advance 2) := by
  unfold State.pop
  split
  · rename_i h; exact Or.inl ⟨h, rfl, rfl⟩
  · exact Or.inr ⟨by omega, rfl⟩

/-! ### Timers and the count -/

theorem countDown_toNat (b : Byte) : (countDown b).toNat = b.toNat - 1 := by
  unfold countDown
  split
  · simp_all
  · rename_i h
    have : b.toNat ≠ 0 := fun e => h (BitVec.eq_of_toNat_eq (by simpa using e))
    have := b.isLt
    rw [BitVec.toNat_sub]
    simp
    omega

/-- Everything that follows a completed instruction (R80 steps 3 and 4). -/
theorem State.countInstr_cases :
    (s.icount + 1 = s.cfg.divisor ∧ s.countInstr = ({ s with icount := 0 } : State).timerTick.renderTick) ∨
      (s.icount + 1 ≠ s.cfg.divisor ∧ s.countInstr = { s with icount := s.icount + 1 }) := by
  unfold State.countInstr
  split
  · rename_i h; exact Or.inl ⟨h, rfl⟩
  · rename_i h; exact Or.inr ⟨h, rfl⟩

/-! ### Frames -/

/-- A frame follows from equal fields. -/
theorem UnchangedBut.mono {ps qs : List Piece} {s t : State} (h : UnchangedBut ps s t) (hs : ∀ p ∈ ps, p ∈ qs) :
    UnchangedBut qs s t := fun p hp => h p fun hm => hp (hs p hm)

/-- Frames compose. -/
theorem UnchangedBut.trans {ps : List Piece} {s t u : State} (h : UnchangedBut ps s t) (k : UnchangedBut ps t u) :
    UnchangedBut ps s u := by
  intro p hp
  have h1 := h p hp
  have h2 := k p hp
  cases p <;> simp_all [Piece.same]

end Sys2Proof.Machine
end

