-- ==== Sys2Proof/Laws/Display.lean ====
section
/-! SUPPORT. Pixels of a drawn display, and the key scan. -/

namespace Sys2Proof.Machine

/-- A sprite row byte at column `x0`: pixel `px` is its bit 7 - (px - x0), and nothing outside its eight columns
(R152). -/
theorem spriteRow_getMsbD (b x0 : Byte) {px : Nat} (h : px < 64) :
    (spriteRow b x0).getMsbD px = (decide (x0.toNat ≤ px) && b.getMsbD (px - x0.toNat)) := by
  unfold spriteRow
  refine (BitVec.getMsbD_ushiftRight).trans ?_
  have e : (b ++ (0 : BitVec 56)).getMsbD (px - x0.toNat) = b.getMsbD (px - x0.toNat) := by
    refine BitVec.getMsbD_append.trans ?_
    split
    · rename_i h8
      simp [BitVec.getMsbD_of_ge b _ h8]
    · rfl
  rw [show (b ++ (0 : BitVec 56) : BitVec 64).getMsbD (px - x0.toNat) = _ from e]
  by_cases hx : px < x0.toNat
  · simp [h, hx, Nat.not_le.mpr hx]
  · simp [h, hx, Nat.not_lt.mp hx]

/-- The sprite byte of a display row, where the sprite reaches it. -/
theorem spriteAt_getMsbD (bs : List Byte) (x0 y0 : Byte) (y : Nat) {px : Nat} (h : px < 64) :
    (spriteAt bs x0 y0 y).getMsbD px =
      (decide (y0.toNat ≤ y) && decide (x0.toNat ≤ px) && (bs[y - y0.toNat]?.getD 0).getMsbD (px - x0.toNat)) := by
  unfold spriteAt
  by_cases hy : y0.toNat ≤ y
  · simp only [hy, if_true, decide_true, Bool.true_and]
    cases hb : bs[y - y0.toNat]? with
    | none => simp
    | some b => simp [spriteRow_getMsbD b x0 h]
  · simp [hy]

/-- A drawn pixel is the old one, flipped where the sprite has a bit (R151). -/
theorem drawn_getMsbD (d : Vector DispRow 32) (bs : List Byte) (x0 y0 : Byte) (x : Fin 64) (y : Fin 32) :
    (drawn d bs x0 y0)[y].getMsbD x.val =
      ((d[y]).getMsbD x.val ^^ (spriteAt bs x0 y0 y.val).getMsbD x.val) := by
  simp [drawn, BitVec.getMsbD_xor]

/-- A row has a set bit iff some column of it is set. -/
theorem dispRow_ne_zero (r : DispRow) : r ≠ 0 ↔ ∃ x : Fin 64, r.getMsbD x.val = true := by
  constructor
  · intro h
    by_contra hx
    apply h
    apply BitVec.eq_of_getMsbD_eq
    intro i hi
    have := not_exists.mp hx ⟨i, hi⟩
    simp_all
  · rintro ⟨x, hx⟩ rfl
    simp at hx

/-- Whether some set pixel of the grid is flipped (R151). -/
theorem collision_iff (d : Vector DispRow 32) (bs : List Byte) (x0 y0 : Byte) :
    ((List.finRange 32).any fun y => (d[y] &&& spriteAt bs x0 y0 y.val) != 0) = true ↔
      ∃ y : Fin 32, ∃ x : Fin 64,
        (d[y]).getMsbD x.val = true ∧ (spriteAt bs x0 y0 y.val).getMsbD x.val = true := by
  rw [List.any_eq_true]
  refine ⟨?_, ?_⟩
  · rintro ⟨y, -, hy⟩
    obtain ⟨x, hx⟩ := (dispRow_ne_zero _).mp (bne_iff_ne.mp hy)
    rw [BitVec.getMsbD_and, Bool.and_eq_true] at hx
    exact ⟨y, x, hx⟩
  · rintro ⟨y, x, h1, h2⟩
    refine ⟨y, List.mem_finRange y, bne_iff_ne.mpr ((dispRow_ne_zero _).mpr ⟨x, ?_⟩)⟩
    rw [BitVec.getMsbD_and, Bool.and_eq_true]
    exact ⟨h1, h2⟩

/-- VF after a draw is 1 where a set pixel was flipped, and 0 where none was (R151). -/
theorem collisionFlag_cases (d : Vector DispRow 32) (bs : List Byte) (x0 y0 : Byte) :
    (collisionFlag d bs x0 y0 = 1 ∧ ∃ y : Fin 32, ∃ x : Fin 64,
        (d[y]).getMsbD x.val = true ∧ (spriteAt bs x0 y0 y.val).getMsbD x.val = true) ∨
      (collisionFlag d bs x0 y0 = 0 ∧ ¬ ∃ y : Fin 32, ∃ x : Fin 64,
        (d[y]).getMsbD x.val = true ∧ (spriteAt bs x0 y0 y.val).getMsbD x.val = true) := by
  have h := collision_iff d bs x0 y0
  unfold collisionFlag flagByte
  revert h
  cases (List.finRange 32).any fun y => (d[y] &&& spriteAt bs x0 y0 y.val) != 0 with
  | true => exact fun h => Or.inl ⟨rfl, h.mp rfl⟩
  | false => exact fun h => Or.inr ⟨rfl, fun hx => Bool.noConfusion (h.mpr hx)⟩

/-- The key scan finds the least key down (R162). -/
theorem State.firstKey_eq_some {s : State} {k : Fin 16} :
    s.firstKey = some k ↔ s.keys[k] = true ∧ ∀ j : Fin 16, j < k → s.keys[j] = false := by
  simp only [State.firstKey]
  generalize s.keys = ks
  constructor
  · intro h
    obtain ⟨hk, as, bs, hl, has⟩ := List.find?_eq_some_iff_append.mp h
    refine ⟨hk, fun j hj => ?_⟩
    have hmem : j ∈ as := by
      have hj' : j ∈ as ++ k :: bs := hl ▸ List.mem_finRange j
      have hs : (as ++ k :: bs).Pairwise (· < ·) := hl ▸ List.pairwise_lt_finRange 16
      rcases List.mem_append.mp hj' with h1 | h1
      · exact h1
      · rcases List.mem_cons.mp h1 with rfl | h2
        · exact absurd hj (lt_irrefl _)
        · have h3 := (List.pairwise_cons.mp (List.pairwise_append.mp hs).2.1).1 j h2
          exact absurd hj (not_lt.mpr (le_of_lt h3))
    simpa using has j hmem
  · rintro ⟨hk, hlt⟩
    cases hf : (List.finRange 16).find? fun j => ks[j] with
    | none => exact absurd hk (by simpa using List.find?_eq_none.mp hf k (List.mem_finRange k))
    | some j =>
      obtain ⟨hj, as, bs, hl, has⟩ := List.find?_eq_some_iff_append.mp hf
      rcases lt_trichotomy j k with h | h | h
      · rw [hlt j h] at hj; exact absurd hj (by simp)
      · rw [h]
      · have hs : (as ++ j :: bs).Pairwise (· < ·) := hl ▸ List.pairwise_lt_finRange 16
        have hk' : k ∈ as ++ j :: bs := hl ▸ List.mem_finRange k
        rcases List.mem_append.mp hk' with h1 | h1
        · have := has k h1
          simp_all
        · rcases List.mem_cons.mp h1 with rfl | h2
          · exact absurd h (lt_irrefl _)
          · have h3 := (List.pairwise_cons.mp (List.pairwise_append.mp hs).2.1).1 k h2
            exact absurd h (not_lt.mpr (le_of_lt h3))

theorem State.firstKey_eq_none {s : State} : s.firstKey = none ↔ ∀ k : Fin 16, s.keys[k] = false := by
  simp [State.firstKey, List.find?_eq_none]

end Sys2Proof.Machine
end

