-- ==== Sys2Proof/Laws/Encoding.lean ====
section
/-! SUPPORT. The fields of a word as numbers, and of a word of each format as the encoder builds it (R61, R62). -/

namespace Sys2Proof

/-! ### Fields as numbers -/

theorem opOf_toNat (w : Word) : (opOf w).toNat = w.toNat / 4096 := by
  have := w.isLt
  simp only [opOf, BitVec.extractLsb'_toNat, Nat.shiftRight_eq_div_pow]
  omega
theorem xOf_toNat (w : Word) : (xOf w).toNat = w.toNat / 256 % 16 := by
  simp only [xOf, BitVec.extractLsb'_toNat, Nat.shiftRight_eq_div_pow]
theorem yOf_toNat (w : Word) : (yOf w).toNat = w.toNat / 16 % 16 := by
  simp only [yOf, BitVec.extractLsb'_toNat, Nat.shiftRight_eq_div_pow]
theorem nOf_toNat (w : Word) : (nOf w).toNat = w.toNat % 16 := by
  simp only [nOf, BitVec.extractLsb'_toNat, Nat.shiftRight_eq_div_pow]
  omega
theorem nnOf_toNat (w : Word) : (nnOf w).toNat = w.toNat % 256 := by
  simp only [nnOf, BitVec.extractLsb'_toNat, Nat.shiftRight_eq_div_pow]
  omega
theorem nnnOf_toNat (w : Word) : (nnnOf w).toNat = w.toNat % 4096 := by
  simp only [nnnOf, BitVec.extractLsb'_toNat, Nat.shiftRight_eq_div_pow]
  omega

/-! ### Words as numbers -/

theorem append_toNat {m n : Nat} (a : BitVec m) (b : BitVec n) : (a ++ b).toNat = a.toNat * 2 ^ n + b.toNat := by
  rw [BitVec.toNat_append, ← Nat.shiftLeft_add_eq_or_of_lt b.isLt, Nat.shiftLeft_eq]

variable (op x y n : BitVec 4) (nn : Byte) (nnn : Imm12)

theorem encAddr_toNat : (encAddr op nnn).toNat = op.toNat * 4096 + nnn.toNat := by
  rw [encAddr, append_toNat]; rfl
theorem encRegImm_toNat : (encRegImm op x nn).toNat = op.toNat * 4096 + x.toNat * 256 + nn.toNat := by
  simp only [encRegImm, append_toNat]; omega
theorem encRegReg_toNat :
    (encRegReg op x y n).toNat = op.toNat * 4096 + x.toNat * 256 + y.toNat * 16 + n.toNat := by
  simp only [encRegReg, append_toNat]; omega
theorem wordOfBytes_toNat (hi lo : Byte) : (wordOfBytes hi lo).toNat = hi.toNat * 256 + lo.toNat := by
  rw [wordOfBytes, append_toNat]; rfl
/-- The two bytes of a word make the word again. -/
@[simp] theorem wordOfBytes_bytes (w : Word) : wordOfBytes (hiByte w) (loByte w) = w := by
  have := w.isLt
  apply BitVec.eq_of_toNat_eq
  rw [wordOfBytes_toNat, hiByte, loByte, BitVec.extractLsb'_toNat, BitVec.extractLsb'_toNat]
  simp only [Nat.shiftRight_eq_div_pow]
  omega

/-! ### The fields of an encoded word -/

@[simp] theorem opOf_encAddr : opOf (encAddr op nnn) = op :=
  BitVec.eq_of_toNat_eq (by rw [opOf_toNat, encAddr_toNat]; omega)
@[simp] theorem nnnOf_encAddr : nnnOf (encAddr op nnn) = nnn :=
  BitVec.eq_of_toNat_eq (by rw [nnnOf_toNat, encAddr_toNat]; omega)
@[simp] theorem opOf_encRegImm : opOf (encRegImm op x nn) = op :=
  BitVec.eq_of_toNat_eq (by rw [opOf_toNat, encRegImm_toNat]; omega)
@[simp] theorem xOf_encRegImm : xOf (encRegImm op x nn) = x :=
  BitVec.eq_of_toNat_eq (by rw [xOf_toNat, encRegImm_toNat]; omega)
@[simp] theorem nnOf_encRegImm : nnOf (encRegImm op x nn) = nn :=
  BitVec.eq_of_toNat_eq (by rw [nnOf_toNat, encRegImm_toNat]; omega)
@[simp] theorem opOf_encRegReg : opOf (encRegReg op x y n) = op :=
  BitVec.eq_of_toNat_eq (by rw [opOf_toNat, encRegReg_toNat]; omega)
@[simp] theorem xOf_encRegReg : xOf (encRegReg op x y n) = x :=
  BitVec.eq_of_toNat_eq (by rw [xOf_toNat, encRegReg_toNat]; omega)
@[simp] theorem yOf_encRegReg : yOf (encRegReg op x y n) = y :=
  BitVec.eq_of_toNat_eq (by rw [yOf_toNat, encRegReg_toNat]; omega)
@[simp] theorem nOf_encRegReg : nOf (encRegReg op x y n) = n :=
  BitVec.eq_of_toNat_eq (by rw [nOf_toNat, encRegReg_toNat]; omega)

@[simp] theorem yOf_encRegImm : yOf (encRegImm op x nn) = nn.extractLsb' 4 4 :=
  BitVec.eq_of_toNat_eq (by
    rw [yOf_toNat, encRegImm_toNat, BitVec.extractLsb'_toNat, Nat.shiftRight_eq_div_pow]; omega)
@[simp] theorem nOf_encRegImm : nOf (encRegImm op x nn) = nn.extractLsb' 0 4 :=
  BitVec.eq_of_toNat_eq (by
    rw [nOf_toNat, encRegImm_toNat, BitVec.extractLsb'_toNat, Nat.shiftRight_eq_div_pow]; omega)

/-! ### Masks (R66) -/

theorem encRegReg_getLsbD (i : Nat) :
    (encRegReg op x y n).getLsbD i =
      if i < 4 then n.getLsbD i
      else if i - 4 < 4 then y.getLsbD (i - 4)
      else if i - 4 - 4 < 4 then x.getLsbD (i - 4 - 4) else op.getLsbD (i - 4 - 4 - 4) := by
  unfold encRegReg
  refine BitVec.getLsbD_append.trans ?_
  rw [BitVec.getLsbD_append, BitVec.getLsbD_append]

/-- A word is its four nibbles. -/
theorem word_eq_nibbles (w : Word) : w = encRegReg (opOf w) (xOf w) (yOf w) (nOf w) := by
  apply BitVec.eq_of_toNat_eq
  rw [encRegReg_toNat, opOf_toNat, xOf_toNat, yOf_toNat, nOf_toNat]
  omega

/-- A mask acts nibble by nibble. -/
theorem and_mask (w m : Word) :
    w &&& m = encRegReg (opOf w &&& opOf m) (xOf w &&& xOf m) (yOf w &&& yOf m) (nOf w &&& nOf m) := by
  apply BitVec.eq_of_getLsbD_eq
  intro i hi
  rw [encRegReg_getLsbD]
  interval_cases i <;> simp [opOf, xOf, yOf, nOf]

theorem nibble_and_ones (x : BitVec 4) : x &&& 15#4 = x := by revert x; decide
theorem nibble_and_zero (x : BitVec 4) : x &&& 0#4 = 0#4 := by simp

theorem and_maskFFFF (w : Word) : w &&& 0xFFFF#16 = w := by simpa using BitVec.and_allOnes (x := w)
theorem and_maskF000 (w : Word) : w &&& 0xF000#16 = encRegReg (opOf w) 0#4 0#4 0#4 := by
  rw [and_mask]
  exact congr (congr (congr (congrArg _ (nibble_and_ones _)) (nibble_and_zero _)) (nibble_and_zero _)) (nibble_and_zero _)
theorem and_maskF00F (w : Word) : w &&& 0xF00F#16 = encRegReg (opOf w) 0#4 0#4 (nOf w) := by
  rw [and_mask]
  exact congr (congr (congr (congrArg _ (nibble_and_ones _)) (nibble_and_zero _)) (nibble_and_zero _)) (nibble_and_ones _)
theorem and_maskF0FF (w : Word) : w &&& 0xF0FF#16 = encRegReg (opOf w) 0#4 (yOf w) (nOf w) := by
  rw [and_mask]
  exact congr (congr (congr (congrArg _ (nibble_and_ones _)) (nibble_and_zero _)) (nibble_and_ones _)) (nibble_and_ones _)

end Sys2Proof
end

