-- ==== Sys2Proof/Laws/Memory.lean ====
section
/-! SUPPORT. What the memory operations do: reads after writes, and that each keeps the canonical form. -/

namespace Sys2Proof.Machine

variable {font : Vector Byte 80} {m : Memory} {a b : Nat} {u : Byte}

/-! ### Reads after writes -/

theorem Memory.lookup_erase (a b : Nat) (m : Memory) :
    Memory.lookup b (Memory.erase a m) = if b = a then none else Memory.lookup b m := by
  induction m with
  | nil => simp [Memory.erase, Memory.lookup]
  | cons c m ih =>
    obtain ⟨k, w⟩ := c
    simp only [Memory.erase] at ih
    by_cases hk : k = a
    · subst hk
      simp only [Memory.erase, ne_eq, List.filter_cons, not_true_eq_false, decide_false, Bool.false_eq_true,
        if_false, ih, Memory.lookup]
      split <;> simp_all
    · simp only [Memory.erase, ne_eq, List.filter_cons, hk, not_false_eq_true, decide_true, if_true,
        Memory.lookup, ih]
      split <;> simp_all

theorem Memory.lookup_insert (h : Memory.lookup a m = none) (b : Nat) :
    Memory.lookup b (Memory.insert a u m) = if b = a then some u else Memory.lookup b m := by
  induction m with
  | nil => simp [Memory.insert, Memory.lookup]
  | cons c m ih =>
    obtain ⟨k, w⟩ := c
    simp only [Memory.lookup] at h
    split at h
    · simp at h
    · rename_i hak
      simp only [Memory.insert]
      split
      · simp [Memory.lookup]
      · simp only [Memory.lookup, ih h]
        split <;> simp_all
        omega

/-- A write sets its own byte and leaves every other one alone. -/
theorem Memory.read_write (font : Vector Byte 80) (a : Nat) (u : Byte) (m : Memory) (b : Nat) :
    Memory.read font (Memory.write font a u m) b = if b = a then u else Memory.read font m b := by
  have h : Memory.lookup a (Memory.erase a m) = none := by simp [Memory.lookup_erase]
  unfold Memory.write Memory.read
  split
  · rename_i hu
    rw [Memory.lookup_erase]
    split
    · simp_all
    · rfl
  · rw [Memory.lookup_insert h, Memory.lookup_erase]
    split <;> simp

/-- What a list of bytes stored from `a` on leaves at each address. -/
theorem Memory.read_writeList (font : Vector Byte 80) (us : List Byte) (a : Nat) (m : Memory) (b : Nat) :
    Memory.read font (Memory.writeList font a us m) b =
      if a ≤ b then us[b - a]?.getD (Memory.read font m b) else Memory.read font m b := by
  induction us generalizing a m with
  | nil => simp [Memory.writeList]
  | cons u us ih =>
    rw [Memory.writeList, ih, Memory.read_write]
    by_cases h : a ≤ b
    · rcases Nat.eq_or_lt_of_le h with rfl | h'
      · simp
      · have e : b - a = (b - (a + 1)) + 1 := by omega
        simp [h, Nat.succ_le_of_lt h', e, Nat.ne_of_gt h']
    · have h1 : ¬ a + 1 ≤ b := by omega
      have h2 : b ≠ a := by omega
      simp [h, h1, h2]

/-! ### The canonical form -/

theorem Memory.wf_nil (font : Vector Byte 80) : Memory.wf font [] := by simp [Memory.wf]

theorem Memory.mem_insert {c : Host.Cell} : c ∈ Memory.insert a u m ↔ c = (a, u) ∨ c ∈ m := by
  induction m with
  | nil => simp [Memory.insert]
  | cons d m ih =>
    simp only [Memory.insert]
    split
    · simp
    · simp [ih]; tauto

theorem Memory.wf_erase (h : Memory.wf font m) : Memory.wf font (Memory.erase a m) :=
  ⟨h.1.filter _, fun c hc => h.2 c (List.mem_filter.mp hc).1⟩

theorem Memory.wf_insert (h : Memory.wf font m) (hm : ∀ c ∈ m, c.1 ≠ a) (ha : a < memSize)
    (hu : u ≠ blankByte font a) : Memory.wf font (Memory.insert a u m) := by
  refine ⟨?_, fun c hc => ?_⟩
  · obtain ⟨hp, -⟩ := h
    induction m with
    | nil => simp [Memory.insert]
    | cons d m ih =>
      obtain ⟨k, w⟩ := d
      rw [List.pairwise_cons] at hp
      simp only [Memory.insert]
      split
      · rename_i hk
        rw [List.pairwise_cons, List.pairwise_cons]
        refine ⟨fun c hc => ?_, hp⟩
        rcases List.mem_cons.mp hc with rfl | hc
        · exact hk
        · exact Nat.lt_trans hk (hp.1 c hc)
      · rename_i hk
        rw [List.pairwise_cons]
        refine ⟨fun c hc => ?_, ih (fun c hc => hm c (List.mem_cons_of_mem _ hc)) hp.2⟩
        rcases Memory.mem_insert.mp hc with rfl | hc
        · have := hm (k, w) (by simp)
          simp only at this ⊢
          omega
        · exact hp.1 c hc
  · rcases Memory.mem_insert.mp hc with rfl | hc
    · exact ⟨ha, hu⟩
    · exact h.2 c hc

/-- Every store inside MEM keeps the canonical form. -/
theorem Memory.wf_write (h : Memory.wf font m) (ha : a < memSize) : Memory.wf font (Memory.write font a u m) := by
  unfold Memory.write
  split
  · exact Memory.wf_erase h
  · rename_i hu
    refine Memory.wf_insert (Memory.wf_erase h) (fun c hc => ?_) ha hu
    simpa using (List.mem_filter.mp hc).2

theorem Memory.wf_writeList (us : List Byte) (h : Memory.wf font m) (ha : us = [] ∨ a + us.length ≤ memSize) :
    Memory.wf font (Memory.writeList font a us m) := by
  induction us generalizing a m with
  | nil => exact h
  | cons u us ih =>
    have hl : a + (us.length + 1) ≤ memSize := by simpa using ha
    exact ih (Memory.wf_write h (by omega)) (Or.inr (by omega))

theorem Memory.wf_ofFun (font : Vector Byte 80) (f : Nat → Byte) : Memory.wf font (Memory.ofFun font f) := by
  unfold Memory.ofFun
  refine ⟨?_, fun c hc => ?_⟩
  · refine List.Pairwise.filterMap _ (fun x y hxy c hc d hd => ?_) List.pairwise_lt_range
    split at hc <;> simp_all
    obtain ⟨-, rfl⟩ := hc
    obtain ⟨-, rfl⟩ := hd
    exact hxy
  · obtain ⟨x, hx, hc⟩ := List.mem_filterMap.mp hc
    split at hc
    · simp at hc
    · rename_i hne
      obtain rfl := (Option.some.inj hc).symm
      exact ⟨List.mem_range.mp hx, hne⟩

/-! ### The state's own reads and writes -/

/-- A read depends on MEM and the font alone. -/
theorem State.memRead_congr {s t : State} (hm : t.mem = s.mem) (hc : t.cfg = s.cfg) (a : Nat) :
    t.memRead a = s.memRead a := by simp [State.memRead, hm, hc]

theorem State.memRead_ok {s : State} (h : a < memSize) : s.memRead a = .ok (Memory.read s.cfg.font s.mem a) :=
  if_pos h

theorem State.memRead_error {s : State} (h : memSize ≤ a) : s.memRead a = .error (.memoryOutOfRange a) :=
  if_neg (by omega)

/-! ### Updates that leave every address as it reads -/

section
variable (s : State) (a : Nat)
@[simp] theorem State.memRead_setV (x : Reg) (b : Byte) : (s.setV x b).memRead a = s.memRead a := rfl
@[simp] theorem State.memRead_setAllV (w : Vector Byte 16) : (s.setAllV w).memRead a = s.memRead a := rfl
@[simp] theorem State.memRead_setI (w : Word) : (s.setI w).memRead a = s.memRead a := rfl
@[simp] theorem State.memRead_setPc (w : Word) : (s.setPc w).memRead a = s.memRead a := rfl
@[simp] theorem State.memRead_advance (n : Word) : (s.advance n).memRead a = s.memRead a := rfl
@[simp] theorem State.memRead_skipIf (c : Bool) : (s.skipIf c).memRead a = s.memRead a := rfl
@[simp] theorem State.memRead_setDt (b : Byte) : (s.setDt b).memRead a = s.memRead a := rfl
@[simp] theorem State.memRead_setSt (b : Byte) : (s.setSt b).memRead a = s.memRead a := rfl
@[simp] theorem State.memRead_paint (d : Vector DispRow 32) : (s.paint d).memRead a = s.memRead a := rfl
@[simp] theorem State.memRead_setWithFlag (x : Reg) (b f : Byte) : (s.setWithFlag x b f).memRead a = s.memRead a := rfl
@[simp] theorem State.memRead_timerTick : s.timerTick.memRead a = s.memRead a := rfl
@[simp] theorem State.memRead_renderTick : s.renderTick.memRead a = s.memRead a := rfl
@[simp] theorem State.memRead_sampled : s.sampled.memRead a = s.memRead a := rfl
@[simp] theorem State.memRead_quit : s.quit.memRead a = s.memRead a := rfl
@[simp] theorem State.memRead_reinit : s.reinit.memRead a = s.memRead a := rfl
@[simp] theorem State.memRead_push : s.push.memRead a = s.memRead a := State.memRead_congr (by simp) (by simp) a
@[simp] theorem State.memRead_pop : s.pop.memRead a = s.memRead a := State.memRead_congr (by simp) (by simp) a
@[simp] theorem State.memRead_nextRand : s.nextRand.memRead a = s.memRead a := State.memRead_congr (by simp) (by simp) a
@[simp] theorem State.memRead_applyKeys : s.applyKeys.memRead a = s.memRead a := State.memRead_congr (by simp) (by simp) a
@[simp] theorem State.memRead_countInstr : s.countInstr.memRead a = s.memRead a := State.memRead_congr (by simp) (by simp) a
end

/-- The bytes of a run of addresses. -/
def State.bytesFrom (s : State) (a n : Nat) : List Byte := (List.range n).map fun k => Memory.read s.cfg.font s.mem (a + k)

@[simp] theorem State.bytesFrom_length (s : State) (a n : Nat) : (s.bytesFrom a n).length = n := by
  simp [State.bytesFrom]

theorem State.bytesFrom_succ (s : State) (a n : Nat) :
    s.bytesFrom a (n + 1) = Memory.read s.cfg.font s.mem a :: s.bytesFrom (a + 1) n := by
  simp only [State.bytesFrom, List.range_succ_eq_map, List.map_cons, List.map_map, Nat.add_zero]
  congr 1
  apply List.map_congr_left
  intro k _
  simp only [Function.comp, Nat.succ_eq_add_one]
  congr 1
  omega

theorem State.bytesFrom_getElem? (s : State) (a n k : Nat) :
    (s.bytesFrom a n)[k]? = if k < n then some (Memory.read s.cfg.font s.mem (a + k)) else none := by
  simp only [State.bytesFrom, List.getElem?_map]
  split
  · rename_i h
    simp [List.getElem?_range h]
  · rename_i h
    rw [List.getElem?_eq_none (by simpa using h)]
    rfl

/-- Everything a run of reads can answer: the bytes, or the first address out of range. -/
theorem State.loadBytes_eq (s : State) (a n : Nat) :
    s.loadBytes a n =
      if n = 0 ∨ a + n ≤ memSize then .ok (s.bytesFrom a n) else .error (.memoryOutOfRange (max a memSize)) := by
  induction n generalizing a with
  | zero => simp [State.loadBytes, State.bytesFrom]
  | succ n ih =>
    rw [State.loadBytes, State.bytesFrom_succ]
    by_cases h : a < memSize
    · rw [State.memRead_ok h, ih]
      by_cases h2 : a + (n + 1) ≤ memSize
      · have h3 : n = 0 ∨ a + 1 + n ≤ memSize := by omega
        simp only [if_pos h3, if_pos (Or.inr h2 : n + 1 = 0 ∨ a + (n + 1) ≤ memSize)]
      · have h3 : ¬ (n = 0 ∨ a + 1 + n ≤ memSize) := by omega
        have h4 : ¬ (n + 1 = 0 ∨ a + (n + 1) ≤ memSize) := by omega
        have h5 : max (a + 1) memSize = max a memSize := by omega
        simp only [if_neg h3, if_neg h4, h5]
    · have h4 : ¬ (n + 1 = 0 ∨ a + (n + 1) ≤ memSize) := by omega
      rw [State.memRead_error (by omega), if_neg h4, Nat.max_eq_left (by omega)]

/-- Everything a run of stores can answer: MEM with the bytes written, or the first address out of range. -/
theorem State.storeBytes_eq (us : List Byte) (a : Nat) (s : State) :
    State.storeBytes a us s =
      if us = [] ∨ a + us.length ≤ memSize then .ok { s with mem := Memory.writeList s.cfg.font a us s.mem }
      else .error (.memoryOutOfRange (max a memSize)) := by
  induction us generalizing a s with
  | nil => simp [State.storeBytes, Memory.writeList]
  | cons u us ih =>
    rw [State.storeBytes, State.memWrite]
    by_cases h : a < memSize
    · rw [if_pos h]
      simp only [ih, Memory.writeList, List.length_cons]
      by_cases h2 : a + (us.length + 1) ≤ memSize
      · have h3 : us = [] ∨ a + 1 + us.length ≤ memSize := by omega
        simp only [if_pos h3, if_pos (Or.inr h2 : u :: us = [] ∨ a + (us.length + 1) ≤ memSize)]
      · have h0 : us ≠ [] := by rintro rfl; simp at h2; omega
        have h3 : ¬ (us = [] ∨ a + 1 + us.length ≤ memSize) := by rintro (h | h); exacts [h0 h, by omega]
        have h5 : max (a + 1) memSize = max a memSize := by omega
        have h4 : ¬ (u :: us = [] ∨ a + (us.length + 1) ≤ memSize) := by simp; omega
        rw [if_neg h3, if_neg h4, h5]
    · have h4 : ¬ (u :: us = [] ∨ a + (u :: us).length ≤ memSize) := by simp; omega
      rw [if_neg h, if_neg h4, Nat.max_eq_left (by omega)]

/-- Everything the fetch can answer (R84). -/
theorem State.fetch_eq (s : State) :
    s.fetch =
      if s.pc.toNat ≤ 4094 then
        .ok (wordOfBytes (Memory.read s.cfg.font s.mem s.pc.toNat) (Memory.read s.cfg.font s.mem (s.pc.toNat + 1)))
      else .error (.memoryOutOfRange (max s.pc.toNat 4096)) := by
  unfold State.fetch
  rcases Nat.lt_or_ge s.pc.toNat 4095 with h | h
  · rw [State.memRead_ok (show s.pc.toNat < 4096 by omega), State.memRead_ok (show s.pc.toNat + 1 < 4096 by omega),
      if_pos (by omega)]
  · rw [State.memRead_error (a := s.pc.toNat + 1) (show 4096 ≤ s.pc.toNat + 1 by omega), if_neg (by omega)]
    rcases Nat.eq_or_lt_of_le h with h' | h'
    · rw [State.memRead_ok (show s.pc.toNat < 4096 by omega), ← h']; rfl
    · rw [State.memRead_error (show 4096 ≤ s.pc.toNat by omega), Nat.max_eq_left (by omega)]

end Sys2Proof.Machine
end

