-- ==== Sys2Proof/Laws/PerInstr.lean ====
section
/-! SUPPORT. Statements for all instructions, one lemma per constructor: the encoder agrees with the opcode map of
spec/30_encoding.md R66. -/

namespace Sys2Proof.Laws.MatchesRow

/-- The word of an instruction matches some row of the map, and that row builds the instruction back from it. -/
def Statement (i : Instr) : Prop :=
  ∃ r ∈ opcodeRows, encode i &&& r.mask = r.pattern ∧ r.build (encode i) = i

/-- A row at a known place of the map. -/
theorem of_row {i : Instr} (k : Nat) (r : OpcodeRow) (h : opcodeRows[k]? = some r)
    (hm : encode i &&& r.mask = r.pattern) (hb : r.build (encode i) = i) : Statement i :=
  ⟨r, List.mem_of_getElem? h, hm, hb⟩

variable (x y n : BitVec 4) (nn : Byte) (nnn : Imm12)

theorem cls : Statement .cls :=
  of_row 0 _ rfl rfl
    rfl
theorem ret : Statement .ret :=
  of_row 1 _ rfl rfl
    rfl
theorem sys : Statement (.sys nnn) :=
  of_row 2 _ rfl ((and_maskF000 _).trans (by simp only [encode, opOf_encAddr]; rfl))
    (by simp [encode])
theorem jp : Statement (.jp nnn) :=
  of_row 3 _ rfl ((and_maskF000 _).trans (by simp only [encode, opOf_encAddr]; rfl))
    (by simp [encode])
theorem call : Statement (.call nnn) :=
  of_row 4 _ rfl ((and_maskF000 _).trans (by simp only [encode, opOf_encAddr]; rfl))
    (by simp [encode])
theorem seImm : Statement (.seImm x nn) :=
  of_row 5 _ rfl ((and_maskF000 _).trans (by simp only [encode, opOf_encRegImm]; rfl))
    (by simp [encode])
theorem sneImm : Statement (.sneImm x nn) :=
  of_row 6 _ rfl ((and_maskF000 _).trans (by simp only [encode, opOf_encRegImm]; rfl))
    (by simp [encode])
theorem seReg : Statement (.seReg x y n) :=
  of_row 7 _ rfl ((and_maskF000 _).trans (by simp only [encode, opOf_encRegReg]; rfl))
    (by simp [encode])
theorem ldImm : Statement (.ldImm x nn) :=
  of_row 8 _ rfl ((and_maskF000 _).trans (by simp only [encode, opOf_encRegImm]; rfl))
    (by simp [encode])
theorem addImm : Statement (.addImm x nn) :=
  of_row 9 _ rfl ((and_maskF000 _).trans (by simp only [encode, opOf_encRegImm]; rfl))
    (by simp [encode])
theorem ldReg : Statement (.ldReg x y) :=
  of_row 10 _ rfl ((and_maskF00F _).trans (by simp only [encode, opOf_encRegReg, nOf_encRegReg]; rfl))
    (by simp [encode])
theorem or : Statement (.or x y) :=
  of_row 11 _ rfl ((and_maskF00F _).trans (by simp only [encode, opOf_encRegReg, nOf_encRegReg]; rfl))
    (by simp [encode])
theorem and : Statement (.and x y) :=
  of_row 12 _ rfl ((and_maskF00F _).trans (by simp only [encode, opOf_encRegReg, nOf_encRegReg]; rfl))
    (by simp [encode])
theorem xor : Statement (.xor x y) :=
  of_row 13 _ rfl ((and_maskF00F _).trans (by simp only [encode, opOf_encRegReg, nOf_encRegReg]; rfl))
    (by simp [encode])
theorem addReg : Statement (.addReg x y) :=
  of_row 14 _ rfl ((and_maskF00F _).trans (by simp only [encode, opOf_encRegReg, nOf_encRegReg]; rfl))
    (by simp [encode])
theorem sub : Statement (.sub x y) :=
  of_row 15 _ rfl ((and_maskF00F _).trans (by simp only [encode, opOf_encRegReg, nOf_encRegReg]; rfl))
    (by simp [encode])
theorem shr : Statement (.shr x y) :=
  of_row 16 _ rfl ((and_maskF00F _).trans (by simp only [encode, opOf_encRegReg, nOf_encRegReg]; rfl))
    (by simp [encode])
theorem subn : Statement (.subn x y) :=
  of_row 17 _ rfl ((and_maskF00F _).trans (by simp only [encode, opOf_encRegReg, nOf_encRegReg]; rfl))
    (by simp [encode])
theorem shl : Statement (.shl x y) :=
  of_row 18 _ rfl ((and_maskF00F _).trans (by simp only [encode, opOf_encRegReg, nOf_encRegReg]; rfl))
    (by simp [encode])
theorem sneReg : Statement (.sneReg x y n) :=
  of_row 19 _ rfl ((and_maskF000 _).trans (by simp only [encode, opOf_encRegReg]; rfl))
    (by simp [encode])
theorem ldI : Statement (.ldI nnn) :=
  of_row 20 _ rfl ((and_maskF000 _).trans (by simp only [encode, opOf_encAddr]; rfl))
    (by simp [encode])
theorem jpV0 : Statement (.jpV0 nnn) :=
  of_row 21 _ rfl ((and_maskF000 _).trans (by simp only [encode, opOf_encAddr]; rfl))
    (by simp [encode])
theorem rnd : Statement (.rnd x nn) :=
  of_row 22 _ rfl ((and_maskF000 _).trans (by simp only [encode, opOf_encRegImm]; rfl))
    (by simp [encode])
theorem drw : Statement (.drw x y n) :=
  of_row 23 _ rfl ((and_maskF000 _).trans (by simp only [encode, opOf_encRegReg]; rfl))
    (by simp [encode])
theorem skp : Statement (.skp x) :=
  of_row 24 _ rfl ((and_maskF0FF _).trans (by simp only [encode, opOf_encRegImm, yOf_encRegImm, nOf_encRegImm]; rfl))
    (by simp [encode])
theorem sknp : Statement (.sknp x) :=
  of_row 25 _ rfl ((and_maskF0FF _).trans (by simp only [encode, opOf_encRegImm, yOf_encRegImm, nOf_encRegImm]; rfl))
    (by simp [encode])
theorem ldVxDt : Statement (.ldVxDt x) :=
  of_row 26 _ rfl ((and_maskF0FF _).trans (by simp only [encode, opOf_encRegImm, yOf_encRegImm, nOf_encRegImm]; rfl))
    (by simp [encode])
theorem ldVxK : Statement (.ldVxK x) :=
  of_row 27 _ rfl ((and_maskF0FF _).trans (by simp only [encode, opOf_encRegImm, yOf_encRegImm, nOf_encRegImm]; rfl))
    (by simp [encode])
theorem ldDtVx : Statement (.ldDtVx x) :=
  of_row 28 _ rfl ((and_maskF0FF _).trans (by simp only [encode, opOf_encRegImm, yOf_encRegImm, nOf_encRegImm]; rfl))
    (by simp [encode])
theorem ldStVx : Statement (.ldStVx x) :=
  of_row 29 _ rfl ((and_maskF0FF _).trans (by simp only [encode, opOf_encRegImm, yOf_encRegImm, nOf_encRegImm]; rfl))
    (by simp [encode])
theorem addI : Statement (.addI x) :=
  of_row 30 _ rfl ((and_maskF0FF _).trans (by simp only [encode, opOf_encRegImm, yOf_encRegImm, nOf_encRegImm]; rfl))
    (by simp [encode])
theorem ldF : Statement (.ldF x) :=
  of_row 31 _ rfl ((and_maskF0FF _).trans (by simp only [encode, opOf_encRegImm, yOf_encRegImm, nOf_encRegImm]; rfl))
    (by simp [encode])
theorem ldB : Statement (.ldB x) :=
  of_row 32 _ rfl ((and_maskF0FF _).trans (by simp only [encode, opOf_encRegImm, yOf_encRegImm, nOf_encRegImm]; rfl))
    (by simp [encode])
theorem store : Statement (.store x) :=
  of_row 33 _ rfl ((and_maskF0FF _).trans (by simp only [encode, opOf_encRegImm, yOf_encRegImm, nOf_encRegImm]; rfl))
    (by simp [encode])
theorem load : Statement (.load x) :=
  of_row 34 _ rfl ((and_maskF0FF _).trans (by simp only [encode, opOf_encRegImm, yOf_encRegImm, nOf_encRegImm]; rfl))
    (by simp [encode])

end Sys2Proof.Laws.MatchesRow
end

