-- ==== Sys2Proof/Laws/Step.lean ====
section
/-! SUPPORT. What a step can do, said once; and what each memory meaning answers. -/

namespace Sys2Proof.Machine

variable {s t : State}

/-! ### The instruction step and the iteration -/

/-- Everything the instruction step can answer with: a fetch fault, a decode failure, or what `exec` answers. -/
theorem instrStep_cases (s : State) :
    (∃ c, s.fetch = .error c ∧ instrStep s = .fault c) ∨
      (∃ w r, s.fetch = .ok w ∧ decodeWord w = .error r ∧ instrStep s = .fault (.decodeFailure w)) ∨
      (∃ w i, s.fetch = .ok w ∧ decodeWord w = .ok i ∧ instrStep s = exec i s) := by
  unfold instrStep
  cases hf : s.fetch with
  | error c => exact Or.inl ⟨c, rfl, rfl⟩
  | ok w =>
    cases hd : decodeWord w with
    | error r => exact Or.inr (Or.inl ⟨w, r, rfl, hd, by simp [hd]⟩)
    | ok i => exact Or.inr (Or.inr ⟨w, i, rfl, hd, by simp [hd]⟩)

/-- Everything an iteration can do (R80, R90). -/
theorem iteration_next (h : iteration s = .next t) :
    (∃ u, instrStep s.applyKeys = .next u ∧ t = u.countInstr) ∨
      (∃ c, instrStep s.applyKeys = .fault c ∧ t = s.applyKeys.takeFault c) := by
  unfold iteration at h
  cases hi : instrStep s.applyKeys with
  | next u => rw [hi] at h; exact Or.inl ⟨u, rfl, (Host.Outcome.next.inj h).symm⟩
  | fault c => rw [hi] at h; exact Or.inr ⟨c, rfl, (Host.Outcome.next.inj h).symm⟩
  | refused r => rw [hi] at h; cases h

/-- Everything a reboot can do (R203). -/
theorem State.reboot_next {p : List Byte} (h : s.reboot p = .next t) :
    p.length ≤ maxProgram ∧ t = s.reinit.loadProgram p := by
  unfold State.reboot at h
  split at h
  · rename_i hp; exact ⟨hp, (Host.Outcome.next.inj h).symm⟩
  · cases h

/-- Everything a step can do: a host signal, nothing on a machine that does not run, or one iteration. -/
theorem step_next (h : step s = .next t) :
    (s.hostSignal = .quit ∧ t = s.sampled.quit) ∨
      (s.hostSignal = .pause ∧ t = s.sampled) ∨
      (s.hostSignal = .reset ∧ s.image.length ≤ maxProgram ∧ t = s.sampled.reinit.loadProgram s.image) ∨
      (∃ p, s.hostSignal = .reload p ∧ p.length ≤ maxProgram ∧ t = s.sampled.reinit.loadProgram p) ∨
      (s.hostSignal = .none ∧ s.halt ≠ .running ∧ t = s.sampled) ∨
      (s.hostSignal = .none ∧ s.halt = .running ∧ iteration s.sampled = .next t) := by
  unfold step schedulerStep at h
  cases hc : s.hostSignal with
  | quit => rw [hc] at h; exact Or.inl ⟨rfl, (Host.Outcome.next.inj h).symm⟩
  | pause => rw [hc] at h; exact Or.inr (Or.inl ⟨rfl, (Host.Outcome.next.inj h).symm⟩)
  | reset =>
    rw [hc] at h
    exact Or.inr (Or.inr (Or.inl ⟨rfl, State.reboot_next h⟩))
  | reload p =>
    rw [hc] at h
    exact Or.inr (Or.inr (Or.inr (Or.inl ⟨p, rfl, State.reboot_next h⟩)))
  | none =>
    rw [hc] at h
    cases hh : s.halt with
    | running =>
      simp only [hh] at h
      exact Or.inr (Or.inr (Or.inr (Or.inr (Or.inr ⟨rfl, rfl, h⟩))))
    | halted c =>
      simp only [hh] at h
      exact Or.inr (Or.inr (Or.inr (Or.inr (Or.inl ⟨rfl, by simp, (Host.Outcome.next.inj h).symm⟩))))
    | stopped =>
      simp only [hh] at h
      exact Or.inr (Or.inr (Or.inr (Or.inr (Or.inl ⟨rfl, by simp, (Host.Outcome.next.inj h).symm⟩))))

/-! ### The meanings that reach memory -/

/-- FX33: the digits are stored, or the first address out of range is reported. -/
theorem execLdB_eq (x : Reg) (s : State) :
    execLdB x s =
      if s.i.toNat + 3 ≤ memSize then
        .next (({ s with
          mem := Memory.writeList s.cfg.font s.i.toNat (decimalDigits (s.getV x)) s.mem } : State).advance 2)
      else .fault (.memoryOutOfRange (max s.i.toNat memSize)) := by
  unfold execLdB
  rw [State.storeBytes_eq]
  by_cases h : s.i.toNat + 3 ≤ memSize
  · simp [State.dataAddr, decimalDigits, h]
  · simp [State.dataAddr, decimalDigits, h]

/-- FX55: V0 to VX are stored, or the first address out of range is reported. -/
theorem execStore_eq (x : Reg) (s : State) :
    execStore x s =
      if s.i.toNat + rangeCount x ≤ memSize then
        .next ((({ s with
          mem := Memory.writeList s.cfg.font s.i.toNat (s.regRange x) s.mem } : State).setI
            (s.indexAfterRange x)).advance 2)
      else .fault (.memoryOutOfRange (max s.i.toNat memSize)) := by
  unfold execStore
  rw [State.storeBytes_eq]
  have hne : s.regRange x ≠ [] := by
    intro h
    have := congrArg List.length h
    simp [rangeCount] at this
  by_cases h : s.i.toNat + rangeCount x ≤ memSize
  · simp [State.dataAddr, h]
  · simp [State.dataAddr, h, hne]

/-- FX65: V0 to VX are loaded, or the first address out of range is reported. -/
theorem execLoad_eq (x : Reg) (s : State) :
    execLoad x s =
      if s.i.toNat + rangeCount x ≤ memSize then
        .next (((s.setAllV (s.withRange (s.bytesFrom s.i.toNat (rangeCount x)))).setI
          (s.indexAfterRange x)).advance 2)
      else .fault (.memoryOutOfRange (max s.i.toNat memSize)) := by
  unfold execLoad
  rw [State.loadBytes_eq]
  have hne : rangeCount x ≠ 0 := by simp [rangeCount]
  by_cases h : s.i.toNat + rangeCount x ≤ memSize
  · simp [State.dataAddr, h]
  · simp [State.dataAddr, h, hne]

/-- DXYN: the sprite is drawn, or the first address out of range is reported. -/
theorem execDrw_eq (x y : Reg) (n : Nibble) (s : State) :
    execDrw x y n s =
      if n.toNat = 0 ∨ s.i.toNat + n.toNat ≤ memSize then
        .next (((s.paint (drawn s.disp (s.bytesFrom s.i.toNat n.toNat) (s.getV x) (s.getV y))).setV regF
          (collisionFlag s.disp (s.bytesFrom s.i.toNat n.toNat) (s.getV x) (s.getV y))).advance 2)
      else .fault (.memoryOutOfRange (max s.i.toNat memSize)) := by
  unfold execDrw
  rw [State.loadBytes_eq]
  by_cases h : n.toNat = 0 ∨ s.i.toNat + n.toNat ≤ memSize
  · rw [if_pos (by simpa [State.dataAddr] using h), if_pos h]; rfl
  · rw [if_neg (by simpa [State.dataAddr] using h), if_neg h]; rfl

/-- A key number names a key, or is out of range (R160, R173). -/
theorem State.keyDown_eq (s : State) (b : Byte) :
    s.keyDown b = if h : b.toNat < 16 then .ok (s.keys[b.toNat]'h) else .error (.keyIndexOutOfRange b) := rfl

end Sys2Proof.Machine
end

