-- ==== Sys2Proof/Tests/Slice0.lean ====
section
/-! SUPPORT. The model's own tests: expected values are those of spec/95_test_vectors.md (the line is named) or words
written out bit by bit from spec/30_encoding.md R66. After them, one witness for the hypotheses of each statement. -/

namespace Sys2Proof.Tests

open Sys2Proof Sys2Proof.Machine

/-- What a next state shows, or nothing where the outcome is no next state. -/
def seen {α : Type} (f : State → α) : Host.Outcome State Fault Refusal → Option α
  | .next t => some (f t)
  | .fault _ => none
  | .refused _ => none

/-- The fatal condition an outcome raises. -/
def raised : Host.Outcome State Fault Refusal → Option Fault
  | .fault c => some c
  | .next _ => none
  | .refused _ => none

/-- What the state shows after one step that runs the word `w` at PC. -/
def after {α : Type} (s : State) (w : Nat) (f : State → α) : Option α := seen f (step (s.withFetchWord 16 w))

/-- Reset with V1, V2 and VF given. -/
def regs (a b f : Byte) : State := ((State.reset.setV 1 a).setV 2 b).setV 15 f

/-- Bytes laid in memory. -/
def poke (a : Nat) (bs : List Byte) (s : State) : State :=
  { s with mem := Memory.writeList s.cfg.font a bs s.mem }

/-- The byte at an address, where there is one. -/
def byteAt (a : Nat) (s : State) : Option Byte := (s.memRead a).toOption

/-- Keys down. -/
def latch (ks : List Nat) : KeyLatch := Vector.ofFn fun k => ks.contains k.val

/-- The set pixels among some columns of one row. -/
def lit (y : Fin 32) (xs : List (Fin 64)) (s : State) : List Bool := xs.map fun x => s.pixel x y

/-! ### Well-formedness -/

theorem test_cls_word_is_no_sys : (Instr.sys 0x0E0).wellFormed = false := by decide
theorem test_ret_word_is_no_sys : (Instr.sys 0x0EE).wellFormed = false := by decide
theorem test_other_sys_is_well_formed : (Instr.sys 0x1E0).wellFormed = true := by decide

/-! ### Decoding: one word per row of R66, bit by bit -/

theorem test_decode_cls : decodeWord 0b0000000011100000 = .ok .cls := by decide
theorem test_decode_ret : decodeWord 0b0000000011101110 = .ok .ret := by decide
theorem test_decode_sys : decodeWord 0b0000000111100000 = .ok (.sys 0x1E0) := by decide
theorem test_decode_jp : decodeWord 0b0001101010111100 = .ok (.jp 0xABC) := by decide
theorem test_decode_call : decodeWord 0b0010101010111100 = .ok (.call 0xABC) := by decide
theorem test_decode_seImm : decodeWord 0b0011000101000010 = .ok (.seImm 1 0x42) := by decide
theorem test_decode_sneImm : decodeWord 0b0100000101000010 = .ok (.sneImm 1 0x42) := by decide
theorem test_decode_seReg : decodeWord 0b0101000100100111 = .ok (.seReg 1 2 7) := by decide
theorem test_decode_ldImm : decodeWord 0b0110001110101011 = .ok (.ldImm 3 0xAB) := by decide
theorem test_decode_addImm : decodeWord 0b0111001110000001 = .ok (.addImm 3 0x81) := by decide
theorem test_decode_ldReg : decodeWord 0b1000000100100000 = .ok (.ldReg 1 2) := by decide
theorem test_decode_or : decodeWord 0b1000000100100001 = .ok (.or 1 2) := by decide
theorem test_decode_and : decodeWord 0b1000000100100010 = .ok (.and 1 2) := by decide
theorem test_decode_xor : decodeWord 0b1000000100100011 = .ok (.xor 1 2) := by decide
theorem test_decode_addReg : decodeWord 0b1000000100100100 = .ok (.addReg 1 2) := by decide
theorem test_decode_sub : decodeWord 0b1000000100100101 = .ok (.sub 1 2) := by decide
theorem test_decode_shr : decodeWord 0b1000000100100110 = .ok (.shr 1 2) := by decide
theorem test_decode_subn : decodeWord 0b1000000100100111 = .ok (.subn 1 2) := by decide
theorem test_decode_shl : decodeWord 0b1000000100101110 = .ok (.shl 1 2) := by decide
theorem test_decode_sneReg : decodeWord 0b1001000100101111 = .ok (.sneReg 1 2 15) := by decide
theorem test_decode_ldI : decodeWord 0b1010001000101010 = .ok (.ldI 0x22A) := by decide
theorem test_decode_jpV0 : decodeWord 0b1011101010111100 = .ok (.jpV0 0xABC) := by decide
theorem test_decode_rnd : decodeWord 0b1100001100001111 = .ok (.rnd 3 0x0F) := by decide
theorem test_decode_drw : decodeWord 0b1101000000010010 = .ok (.drw 0 1 2) := by decide
theorem test_decode_skp : decodeWord 0b1110000110011110 = .ok (.skp 1) := by decide
theorem test_decode_sknp : decodeWord 0b1110000110100001 = .ok (.sknp 1) := by decide
theorem test_decode_ldVxDt : decodeWord 0b1111001100000111 = .ok (.ldVxDt 3) := by decide
theorem test_decode_ldVxK : decodeWord 0b1111010000001010 = .ok (.ldVxK 4) := by decide
theorem test_decode_ldDtVx : decodeWord 0b1111001100010101 = .ok (.ldDtVx 3) := by decide
theorem test_decode_ldStVx : decodeWord 0b1111000100011000 = .ok (.ldStVx 1) := by decide
theorem test_decode_addI : decodeWord 0b1111001000011110 = .ok (.addI 2) := by decide
theorem test_decode_ldF : decodeWord 0b1111000100101001 = .ok (.ldF 1) := by decide
theorem test_decode_ldB : decodeWord 0b1111000100110011 = .ok (.ldB 1) := by decide
theorem test_decode_store : decodeWord 0b1111001001010101 = .ok (.store 2) := by decide
theorem test_decode_load : decodeWord 0b1111111101100101 = .ok (.load 15) := by decide

/-- Section 2.2, words that do not decode. -/
theorem test_decode_illegal : [0x8008, 0x800F, 0x8128, 0xE000, 0xE09F, 0xF0FF, 0xF075, 0xF01F].all
    (fun w => (decodeTableWord 16 w).isNone) = true := by decide

/-- FE1: the byte at the lower address is the high one. -/
theorem test_decode_bytes : decode [0x12, 0x34, 0x99] = .ok (.jp 0x234, [0x99]) := by decide

/-! ### One step each (the sections of 95_test_vectors.md) -/

/-- CLS of 2.7: VF stays, DIRTY is set. -/
theorem test_cls : after ({ regs 0 0 7 with disp := Vector.replicate 32 1 }) 0x00E0
    (fun t => (t.pixel 63 31, t.dirty, t.getV 15, t.pc)) = some (false, true, 7, 0x202) := by decide

/-- CT10. -/
theorem test_ret : after { State.reset with
      pc := 0x400, sp := 3, stack := (((State.reset.stack.set 0 0x111).set 1 0x222).set 2 0x300).set 3 0x999 } 0x00EE
    (fun t => (t.sp, t.pc, t.stack[2])) = some (2, 0x302, 0x300) := by decide

/-- CT11. -/
theorem test_ret_empty : after { State.reset with pc := 0x400 } 0x00EE (fun t => (t.sp, t.pc)) = some (0, 0x402) := by
  decide

/-- CT1. -/
theorem test_sys : after State.reset 0x0123 (fun t => (t.pc, t.icount)) = some (0x202, 1) := by decide

/-- CT3. -/
theorem test_jp : after State.reset 0x1ABC (·.pc) = some 0xABC := by decide

/-- CT6. -/
theorem test_call : after { State.reset with pc := 0x234 } 0x2ABC (fun t => (t.sp, t.stack[0], t.pc)) =
    some (1, 0x234, 0xABC) := by decide

/-- CT8. -/
theorem test_call_full : after { State.reset with pc := 0x234, sp := 15, stack := State.reset.stack.set 15 0x777 } 0x2ABC
    (fun t => (t.sp, t.stack[14], t.stack[15], t.pc)) = some (15, 0, 0x777, 0xABC) := by decide

/-- CT15. -/
theorem test_jpV0 : after (State.reset.setV 0 0xFF) 0xBFFF (·.pc) = some 0x10FE := by decide

/-- 2.4. -/
theorem test_seImm : after (regs 0x42 0 0) 0x3142 (·.pc) = some 0x204 := by decide
theorem test_seImm_not : after (regs 0x43 0 0) 0x3142 (·.pc) = some 0x202 := by decide
theorem test_sneImm : after (regs 0x43 0 0) 0x4142 (·.pc) = some 0x204 := by decide
theorem test_sneImm_not : after (regs 0x42 0 0) 0x4142 (·.pc) = some 0x202 := by decide
theorem test_seReg : after (regs 7 7 0) 0x5127 (·.pc) = some 0x204 := by decide
theorem test_seReg_not : after (regs 7 8 0) 0x5120 (·.pc) = some 0x202 := by decide
theorem test_sneReg : after (regs 7 8 0) 0x912F (·.pc) = some 0x204 := by decide
theorem test_sneReg_not : after (regs 7 7 0) 0x9120 (·.pc) = some 0x202 := by decide

/-- 2.5: V1 and VF after. -/
def v1f (t : State) : Byte × Byte := (t.getV 1, t.getV 15)

theorem test_ldReg : after (regs 0x11 0x22 0xAA) 0x8120 v1f = some (0x22, 0xAA) := by decide
theorem test_or : after (regs 0xF0 0x0F 0xAA) 0x8121 v1f = some (0xFF, 0xAA) := by decide
theorem test_and : after (regs 0xF0 0x3C 0xAA) 0x8122 v1f = some (0x30, 0xAA) := by decide
theorem test_xor : after (regs 0xF0 0x3C 0xAA) 0x8123 v1f = some (0xCC, 0xAA) := by decide
theorem test_addReg : after (regs 0xC8 0x64 0xAA) 0x8124 v1f = some (0x2C, 1) := by decide
theorem test_addReg_vf : after (regs 0x20 0 0xF0) 0x8F14 v1f = some (0x20, 1) := by decide
theorem test_sub : after (regs 0x05 0x0A 0xAA) 0x8125 v1f = some (0xFB, 0) := by decide
theorem test_sub_equal : after (regs 0x07 0x07 0xAA) 0x8125 v1f = some (0x00, 1) := by decide
theorem test_shr : after (regs 0x05 0x99 0xAA) 0x8126 v1f = some (0x02, 1) := by decide
theorem test_shr_vf : after (regs 0 0 0x02) 0x8F16 v1f = some (0, 0) := by decide
theorem test_subn : after (regs 0x0A 0x05 0xAA) 0x8127 v1f = some (0xFB, 0) := by decide
theorem test_subn_vf : after (regs 0x03 0 0x05) 0x81F7 v1f = some (0x02, 1) := by decide
theorem test_shl : after (regs 0x81 0x99 0xAA) 0x812E v1f = some (0x02, 1) := by decide
theorem test_shl_vf : after (regs 0 0 0x81) 0x8FFE v1f = some (0, 1) := by decide
theorem test_ldImm : after State.reset 0x6A10 (·.getV 0xA) = some 0x10 := by decide
theorem test_addImm : after (regs 0 0 0xFF) 0x7F01 (·.getV 15) = some 0 := by decide
theorem test_rnd : after { State.reset with randIn := [0xA7] } 0xC30F (fun t => (t.getV 3, t.randIn)) = some (0x07, []) := by
  decide

/-- 2.6. -/
theorem test_ldI : after State.reset 0xA22A (·.i) = some 0x22A := by decide
theorem test_addI : after { regs 0 0xFF 0 with i := 0x0FFE } 0xF21E (fun t => (t.i, t.getV 15)) = some (0x10FD, 0) := by
  decide
theorem test_addI_memory : after { regs 0 0xFF 0 with
    i := 0x0FFE, cfg := { Config.defaults with addIModulus := .memory } } 0xF21E (·.i) = some 0x00FD := by decide
theorem test_ldF : after (regs 0xFF 0 0) 0xF129 (·.i) = some 0x4FB := by decide
theorem test_ldB : after { State.reset.setV 0 123 with i := 0x300 } 0xF033
    (fun t => (byteAt 0x300 t, byteAt 0x301 t, byteAt 0x302 t, t.i)) = some (some 1, some 2, some 3, 0x300) := by decide
theorem test_ldB_top : after { State.reset.setV 0 255 with i := 4094 } 0xF033 (·.halt) =
    some (.halted (.memoryOutOfRange 4096)) := by decide

/-- Reset with V[k] = 0x10 + k and I = 0x300. -/
def ramp : State := { State.reset with v := Vector.ofFn fun k => BitVec.ofNat 8 (0x10 + k.val), i := 0x300 }

theorem test_store : after ramp 0xF255 (fun t => (byteAt 0x300 t, byteAt 0x302 t, byteAt 0x303 t, t.i)) =
    some (some 0x10, some 0x12, some 0, 0x300) := by decide
theorem test_store_increments : after { ramp with cfg := { Config.defaults with loadStoreIncrementsI := true } } 0xFF55
    (fun t => (byteAt 0x30F t, byteAt 0x310 t, t.i)) = some (some 0x1F, some 0, 0x310) := by decide
theorem test_load : after (poke 0x300 [0xA0, 0xA1, 0xA2, 0xA3] ramp) 0xF265
    (fun t => (t.getV 0, t.getV 2, t.getV 3, t.i)) = some (0xA0, 0xA2, 0x13, 0x300) := by decide
theorem test_load_increments : after { ramp with cfg := { Config.defaults with loadStoreIncrementsI := true } } 0xF265
    (·.i) = some 0x303 := by decide

/-- DR5: columns past 63 are clipped. -/
theorem test_drw_clips : after (poke 0x300 [0xFF] { State.reset.setV 0 60 with i := 0x300 }) 0xD011
    (fun t => (lit 0 [59, 60, 63, 0, 3] t, t.getV 15, t.dirty)) = some ([false, true, true, false, false], 0, true) := by
  decide

/-- DR11: a collision. -/
theorem test_drw_collides : after (poke 0x300 [0xF0] { State.reset with
      i := 0x300, disp := State.reset.disp.set 0 0x4000000000000000 }) 0xD011
    (fun t => (lit 0 [0, 1, 2, 3, 4] t, t.getV 15)) = some ([true, false, true, true, false], 1) := by decide

/-- 2.8. -/
theorem test_skp : after { regs 0 5 0 with keysIn := [latch [5]] } 0xE29E (·.pc) = some 0x204 := by decide
theorem test_skp_above : after { regs 0 16 0 with keysIn := [latch [0]] } 0xE29E (·.halt) =
    some (.halted (.keyIndexOutOfRange 16)) := by decide
theorem test_sknp : after { regs 0 5 0 with keysIn := [latch [4]] } 0xE2A1 (·.pc) = some 0x204 := by decide
theorem test_sknp_down : after { regs 0 5 0 with keysIn := [latch [5]] } 0xE2A1 (·.pc) = some 0x202 := by decide
theorem test_ldVxK : after { State.reset.setV 4 0x77 with keysIn := [latch [3, 7]] } 0xF40A
    (fun t => (t.getV 4, t.pc)) = some (3, 0x202) := by decide
theorem test_ldVxK_waits : after (State.reset.setV 4 0x77) 0xF40A (fun t => (t.getV 4, t.pc, t.icount)) =
    some (0x77, 0x200, 1) := by decide

/-- 2.9. -/
theorem test_ldVxDt : after { State.reset with dt := 0x2A } 0xF307 (fun t => (t.getV 3, t.dt)) = some (0x2A, 0x2A) := by
  decide
theorem test_ldDtVx : after (State.reset.setV 0 60) 0xF015 (·.dt) = some 60 := by decide
theorem test_ldStVx : after (regs 2 0 0) 0xF118 (fun t => (t.st, t.out)) = some (2, []) := by decide

/-- 2.9, TimerTick alone: (1, 1) gives (0, 0) and one cue; the display was painted, so a render follows. -/
theorem test_tick : after { State.reset with dt := 1, st := 1, icount := 16, dirty := true } 0x0000
    (fun t => (t.dt, t.st, t.icount, t.dirty, t.out)) = some (0, 0, 0, false, [.audioCue, .render]) := by decide

/-- FE5 and the count of R90: a fault is not counted and does not tick. -/
theorem test_fetch_above : seen (fun t => (t.halt, t.out)) (step { State.reset with pc := 0xFFFF, icount := 16 }) =
    some (.halted (.memoryOutOfRange 65535), []) := by decide

/-- LR4: a reload keeps the bytes a program stored, the font's among them. -/
theorem test_reload : seen (fun t => (byteAt 0 t, byteAt 0x300 t, byteAt 0x201 t, t.getV 1, t.pc, t.halt))
    (step (poke 0 [0] (poke 0x300 [0x55] { regs 9 9 9 with
      halt := .halted (.decodeFailure 0xF0FF), pc := 0x999, hostCtl := [.reload [0x12, 0x02]] }))) =
    some (some 0, some 0x55, some 0x02, 0, 0x200, .running) := by decide

/-! ### Witnesses: for each statement with hypotheses, a state and operands that meet them, clause by clause -/

/-- Reset with a word at PC. -/
def placed (w : Nat) (s : State) : State := s.withFetchWord 16 w

/-- Reset one instruction before a tick, with DIRTY set, ST = 1, a key value and a random byte pending. -/
def busy : State :=
  { State.reset with icount := 16, st := 1, dt := 9, dirty := true, keysIn := [latch [3, 7]], randIn := [0xA7] }

/-- A halted and a stopped machine, each with the host's signal given. -/
def haltedWith (h : HostSignal) : State := { State.reset with halt := .halted (.decodeFailure 0x8008), hostCtl := [h] }
def stoppedWith (h : HostSignal) : State := { State.reset with halt := .stopped, hostCtl := [h] }

theorem witness_DecodeOfEncodeIsIdentity :
    (Instr.sys 0x0DF).wellFormed = true ∧ (Instr.sys 0xFFF).wellFormed = true ∧ (Instr.seReg 15 15 15).wellFormed = true ∧
      (Instr.load 0).wellFormed = true := by decide

theorem witness_EncodeOfDecodeIsTheWord :
    decodeWord 0x0000 = .ok (.sys 0) ∧ decodeWord 0xFF65 = .ok (.load 15) ∧ decodeWord 0x8FF6 = .ok (.shr 15 15) := by
  decide

theorem witness_IllegalWordsAreExactlyThese :
    (placed 0x8008 State.reset).fetch = .ok 0x8008 ∧ (∃ why, decodeWord 0x8008 = .error why) ∧
    (placed 0xEF9F State.reset).fetch = .ok 0xEF9F ∧ (∃ why, decodeWord 0xEF9F = .error why) ∧
    (placed 0xFFFF State.reset).fetch = .ok 0xFFFF ∧ (∃ why, decodeWord 0xFFFF = .error why) :=
  ⟨by decide, ⟨_, rfl⟩, by decide, ⟨_, rfl⟩, by decide, ⟨_, rfl⟩⟩

/-- An instruction that completes, and one that raises. -/
theorem witness_StepRunsTheDecodedInstruction :
    ((placed 0x00E0 busy).iterates ∧ (placed 0x00E0 busy).fetch = .ok 0x00E0 ∧ decodeWord 0x00E0 = .ok .cls) ∧
    ((placed 0xE29E (regs 0 16 0)).iterates ∧ (placed 0xE29E (regs 0 16 0)).fetch = .ok 0xE29E ∧
      decodeWord 0xE29E = .ok (.skp 2)) := by
  unfold State.iterates; decide

theorem witness_FetchReadsTwoBytesHighByteFirst :
    ({ State.reset with pc := 0 } : State).pc.toNat ≤ 4094 ∧ ({ State.reset with pc := 4094 } : State).pc.toNat ≤ 4094 ∧
    ({ State.reset with pc := 4095 } : State).pc.toNat = 4095 ∧ 4095 < ({ State.reset with pc := 4096 } : State).pc.toNat ∧
    4095 < ({ State.reset with pc := 65535 } : State).pc.toNat := by decide

theorem witness_FatalConditionHalts :
    ((placed 0x8008 busy).iterates ∧ instrStep (placed 0x8008 busy).begun = .fault (.decodeFailure 0x8008)) ∧
    (({ busy with pc := 4095 } : State).iterates ∧
      instrStep ({ busy with pc := 4095 } : State).begun = .fault (.memoryOutOfRange 4096)) ∧
    ((placed 0xE29E (regs 0 16 0)).iterates ∧
      instrStep (placed 0xE29E (regs 0 16 0)).begun = .fault (.keyIndexOutOfRange 16)) :=
  ⟨⟨⟨rfl, rfl⟩, rfl⟩, ⟨⟨rfl, rfl⟩, rfl⟩, ⟨⟨rfl, rfl⟩, rfl⟩⟩

theorem witness_HaltedIsLeftOnlyByReboot :
    ((haltedWith .none).halt ≠ .running ∧ ∃ t, step (haltedWith .none) = .next t) ∧
    ((stoppedWith .quit).halt ≠ .running ∧ ∃ t, step (stoppedWith .quit) = .next t) ∧
    ((haltedWith .pause).halt ≠ .running ∧ ∃ t, step (haltedWith .pause) = .next t) ∧
    ((haltedWith .reset).halt ≠ .running ∧ ∃ t, step (haltedWith .reset) = .next t) ∧
    ((stoppedWith (.reload [0x12])).halt ≠ .running ∧ ∃ t, step (stoppedWith (.reload [0x12])) = .next t) :=
  ⟨⟨by decide, _, rfl⟩, ⟨by decide, _, rfl⟩, ⟨by decide, _, rfl⟩, ⟨by decide, _, rfl⟩, ⟨by decide, _, rfl⟩⟩

/-- A tick (`busy`: DIRTY set, ST = 1), a tick with nothing to signal, and no tick. -/
theorem witness_TimersTickEveryDivisorInstructions :
    ((placed 0x0000 busy).iterates ∧ (∃ u, instrStep (placed 0x0000 busy).begun = .next u ∧ u.dirty = true ∧ u.st.toNat = 1) ∧
      (placed 0x0000 busy).icount + 1 = (placed 0x0000 busy).cfg.divisor) ∧
    ((placed 0x0000 { State.reset with icount := 16 }).iterates ∧
      (∃ u, instrStep (placed 0x0000 { State.reset with icount := 16 }).begun = .next u ∧ u.dirty = false ∧ u.st.toNat = 0) ∧
      (placed 0x0000 { State.reset with icount := 16 }).icount + 1 =
        (placed 0x0000 { State.reset with icount := 16 }).cfg.divisor) ∧
    ((placed 0x00E0 State.reset).iterates ∧ (∃ u, instrStep (placed 0x00E0 State.reset).begun = .next u ∧ u.dirty = true) ∧
      (placed 0x00E0 State.reset).icount + 1 ≠ (placed 0x00E0 State.reset).cfg.divisor) :=
  ⟨⟨⟨rfl, rfl⟩, ⟨_, rfl, rfl, rfl⟩, rfl⟩, ⟨⟨rfl, rfl⟩, ⟨_, rfl, rfl, rfl⟩, rfl⟩, ⟨⟨rfl, rfl⟩, ⟨_, rfl, rfl⟩, by decide⟩⟩

theorem witness_RenderOnlyAtATickIfDirty :
    (placed 0x0000 busy).iterates ∧ (∃ u, instrStep (placed 0x0000 busy).begun = .next u ∧ u.dirty = true) ∧
      (placed 0x0000 busy).icount + 1 = (placed 0x0000 busy).cfg.divisor ∧
    (placed 0x00E0 State.reset).iterates ∧ (∃ u, instrStep (placed 0x00E0 State.reset).begun = .next u) ∧
      (placed 0x00E0 State.reset).icount + 1 ≠ (placed 0x00E0 State.reset).cfg.divisor :=
  ⟨⟨rfl, rfl⟩, ⟨_, rfl, rfl⟩, rfl, ⟨rfl, rfl⟩, ⟨_, rfl⟩, by decide⟩

theorem witness_CueOnlyWhenSoundTimerReachesZero :
    (placed 0x0000 busy).iterates ∧ ∃ u, instrStep (placed 0x0000 busy).begun = .next u ∧ u.st.toNat = 1 :=
  ⟨⟨rfl, rfl⟩, ⟨_, rfl, rfl⟩⟩

theorem witness_TimerInstructionsActBeforeTheTick :
    ((placed 0xF307 busy).iterates ∧ (placed 0xF307 busy).fetch = .ok 0xF307 ∧ decodeWord 0xF307 = .ok (.ldVxDt 3) ∧
      (placed 0xF307 busy).icount + 1 = (placed 0xF307 busy).cfg.divisor) ∧
    ((placed 0xF315 busy).iterates ∧ (placed 0xF315 busy).fetch = .ok 0xF315 ∧ decodeWord 0xF315 = .ok (.ldDtVx 3) ∧
      (placed 0xF315 busy).icount + 1 = (placed 0xF315 busy).cfg.divisor) := by
  unfold State.iterates; decide

/-- A key value pending, and none. -/
theorem witness_KeysChangeOnlyAtTheInputUpdate :
    ((placed 0x0000 busy).iterates ∧ (placed 0x0000 busy).keysIn ≠ [] ∧ ∃ u, instrStep (placed 0x0000 busy).begun = .next u) ∧
    (State.reset.iterates ∧ State.reset.keysIn = [] ∧ ∃ u, instrStep State.reset.begun = .next u) :=
  ⟨⟨⟨rfl, rfl⟩, by decide, _, rfl⟩, ⟨⟨rfl, rfl⟩, rfl, _, rfl⟩⟩

/-- A completed instruction, a fatal condition, a reload. -/
theorem witness_StepKeepsInvariant :
    (State.reset.Inv ∧ ∃ t, step State.reset = .next t) ∧
    ((placed 0x8008 State.reset).Inv ∧ ∃ t, step (placed 0x8008 State.reset) = .next t ∧ t.halt = .halted (.decodeFailure 0x8008)) ∧
    ((haltedWith (.reload [0x12, 0x02])).Inv ∧ ∃ t, step (haltedWith (.reload [0x12, 0x02])) = .next t) :=
  ⟨⟨by decide, _, rfl⟩, ⟨by decide, _, rfl, rfl⟩, ⟨by decide, _, rfl⟩⟩

/-- The longest image that fits, the shortest that does not, and a reset with the kept image. -/
theorem witness_HostRebootReinitialisesAllButMemory :
    ((haltedWith (.reload (List.replicate 3584 7))).hostSignal = .reload (List.replicate 3584 7) ∧
      (List.replicate 3584 (7 : Byte)).length ≤ 3584) ∧
    ((haltedWith (.reload (List.replicate 3585 7))).hostSignal = .reload (List.replicate 3585 7) ∧
      3584 < (List.replicate 3585 (7 : Byte)).length) ∧
    (({ haltedWith .reset with image := [0x12] } : State).hostSignal = .reset ∧ [0x12].length ≤ 3584 ∧
      [0x12] = ({ haltedWith .reset with image := [0x12] } : State).image) :=
  ⟨⟨rfl, List.length_replicate.le⟩, ⟨rfl, by rw [List.length_replicate]; decide⟩, rfl, by decide, rfl⟩

/-- The bytes of an image, the first and the last, and the addresses on either side of it. -/
theorem witness_HostReboot_bytes :
    (0 < ([0x12, 0x02] : List Byte).length ∧ 1 < ([0x12, 0x02] : List Byte).length) ∧
    ((0x1FF < 0x200 ∨ 0x200 + ([0x12, 0x02] : List Byte).length ≤ 0x1FF) ∧
      (0x202 < 0x200 ∨ 0x200 + ([0x12, 0x02] : List Byte).length ≤ 0x202)) := by decide

theorem witness_HostQuitAndPause :
    ({ State.reset with hostCtl := [.quit] } : State).hostSignal = .quit ∧
    ({ State.reset with hostCtl := [.quit] } : State).halt = .running ∧
    (haltedWith .quit).hostSignal = .quit ∧ (haltedWith .quit).halt ≠ .running ∧
    ({ State.reset with hostCtl := [.pause, .pause] } : State).hostSignal = .pause := by decide

theorem witness_EveryStateHasANextStep :
    (haltedWith (.reload [0x12])).image.length ≤ 3584 ∧
      ∀ p, (haltedWith (.reload [0x12])).hostSignal = .reload p → p.length ≤ 3584 :=
  ⟨by decide, fun p h => by cases h; decide⟩

theorem witness_ParametersNeverChange : ∃ t, step busy = .next t := ⟨_, rfl⟩

theorem witness_InstructionsWriteOnlyTheirPieces : ∃ t, exec (.addReg 1 2) (regs 1 2 3) = .next t := ⟨_, rfl⟩

/-- V3 beside ADD V1, V2, and V3 beside LD V2, [I]. -/
theorem witness_InstructionsWriteOnlyTheirRegisters :
    ((∃ t, exec (.addReg 1 2) (regs 1 2 3) = .next t) ∧ mayWriteReg 3 (.addReg 1 2) = false) ∧
    ((∃ t, exec (.load 2) ramp = .next t) ∧ mayWriteReg 3 (.load 2) = false) :=
  ⟨⟨⟨_, rfl⟩, by decide⟩, ⟨⟨_, rfl⟩, by decide⟩⟩

/-- The bytes on either side of what FX33 and FX55 store, and the byte at I for an instruction that stores nothing. -/
theorem witness_InstructionsStoreOnlyFromI :
    ((∃ t, exec (.ldB 1) ramp = .next t) ∧ 0x2FF < ramp.i.toNat ∧ ramp.i.toNat + storedCount (.ldB 1) ≤ 0x303) ∧
    ((∃ t, exec (.store 2) ramp = .next t) ∧ 0x2FF < ramp.i.toNat ∧ ramp.i.toNat + storedCount (.store 2) ≤ 0x303) ∧
    ((∃ t, exec (.load 2) ramp = .next t) ∧ ramp.i.toNat + storedCount (.load 2) ≤ 0x300) :=
  ⟨⟨⟨_, rfl⟩, by decide⟩, ⟨⟨_, rfl⟩, by decide⟩, ⟨_, rfl⟩, by decide⟩

theorem witness_StackSlotFifteenIsNeverWritten :
    (∃ t, exec (.call 0xABC) { State.reset with sp := 14 } = .next t) ∧
    ∃ t, exec (.call 0xABC) { State.reset with sp := 15 } = .next t := ⟨⟨_, rfl⟩, _, rfl⟩

/-- Both sides of each equivalence, at the edge of memory. -/
theorem witness_MemoryFaultsExactlyOutOfRange :
    (exec (.drw 0 1 2) { State.reset with i := 4095 } = .fault (.memoryOutOfRange 4096) ∧
      accessCount (.drw 0 1 2) ≠ 0 ∧ 4095 < 4095 + (accessCount (.drw 0 1 2) - 1)) ∧
    (raised (exec (.drw 0 1 1) { State.reset with i := 4095 }) = none ∧ ¬ 4095 < 4095 + (accessCount (.drw 0 1 1) - 1)) ∧
    (({ State.reset with pc := 4095 } : State).fetch = .error (.memoryOutOfRange 4096) ∧
      4094 < ({ State.reset with pc := 4095 } : State).pc.toNat) ∧
    State.reset.memRead 4096 = .error (.memoryOutOfRange 4096) ∧ State.reset.memRead 4095 = .ok 0 :=
  ⟨⟨rfl, by decide⟩, ⟨by decide, by decide⟩, ⟨rfl, by decide⟩, by decide, by decide⟩

theorem witness_KeyFaultsExactlyAboveFifteen :
    (exec (.sknp 2) (regs 0 16 0) = .fault (.keyIndexOutOfRange 16) ∧ keyOperand (.sknp 2) = some 2 ∧
      15 < ((regs 0 16 0).getV 2).toNat) ∧
    (raised (exec (.sknp 2) (regs 0 15 0)) = none ∧ ¬ 15 < ((regs 0 15 0).getV 2).toNat) :=
  ⟨⟨rfl, by decide⟩, by decide, by decide⟩

/-- An instruction that completes, and one that faults. -/
theorem witness_NoInstructionReadsSchedulerState :
    (∃ t, exec (.ldVxDt 3) busy = .next t) ∧ ∃ c, exec (.skp 2) (regs 0 16 0) = .fault c := ⟨⟨_, rfl⟩, _, rfl⟩

theorem witness_CallPushesItsOwnAddress :
    ({ State.reset with sp := 0 } : State).sp.val < 15 ∧ ({ State.reset with sp := 14 } : State).sp.val < 15 ∧
    ({ State.reset with sp := 15 } : State).sp.val = 15 := by decide

theorem witness_ReturnPopsAndAdvances :
    ({ State.reset with sp := 1 } : State).sp.val = (0 : Fin 16).val + 1 ∧
    ({ State.reset with sp := 15 } : State).sp.val = (14 : Fin 16).val + 1 ∧
    ({ State.reset with sp := 0 } : State).sp.val = 0 := by decide

theorem witness_CallThenReturnRoundTrip : ({ State.reset with sp := 14 } : State).sp.val < 15 := by decide

/-- CT4, and a self-jump at an odd address. -/
theorem witness_SelfJumpChangesOnlySchedulerState :
    ((placed 0x1200 busy).finished ∧ (placed 0x1200 busy).hostSignal = .none) ∧
    ((placed 0x1203 { State.reset with pc := 0x203 }).finished ∧
      (placed 0x1203 { State.reset with pc := 0x203 }).hostSignal = .none) := by
  unfold State.finished; decide

theorem witness_LoadsAndImmediateAdd : (15 : Reg) ≠ 3 := by decide

theorem witness_LogicIsBitwiseAndSetsNoFlag : (15 : Reg) ≠ 1 ∧ 0 < 8 ∧ 7 < 8 := by decide

/-- A destination other than VF, and a register that is neither. -/
theorem witness_AddSetsCarry : (1 : Reg) ≠ regF ∧ (2 : Reg) ≠ 1 ∧ (2 : Reg) ≠ regF := by decide

theorem witness_SubtractSetsNotBorrow : (1 : Reg) ≠ regF ∧ (2 : Reg) ≠ 1 ∧ (2 : Reg) ≠ regF := by decide

theorem witness_ShiftsMoveOneBitIntoFlag : (1 : Reg) ≠ regF ∧ (2 : Reg) ≠ 1 ∧ (2 : Reg) ≠ regF := by decide

theorem witness_RandomByteIsMasked : busy.randIn = 0xA7 :: [] ∧ State.reset.randIn = [] ∧ (4 : Reg) ≠ 3 := by decide

theorem witness_IndexArithmetic :
    State.reset.cfg.addIModulus = .full ∧
    ({ State.reset with cfg := { Config.defaults with addIModulus := .memory } } : State).cfg.addIModulus = .memory := by
  decide

theorem witness_DecimalDigitsAreStored :
    ({ State.reset with i := 4093 } : State).i.toNat ≤ 4093 ∧ 4093 < ({ State.reset with i := 4094 } : State).i.toNat ∧
    (4092 < ({ State.reset with i := 4093 } : State).i.toNat ∨ 4093 + 3 ≤ 4092) ∧ (4096 < 4093 ∨ 4093 + 3 ≤ 4096) := by
  decide

/-- I + X at 4095 and one above, for the longest and the shortest range; both values of the parameter. -/
theorem witness_StoreWritesTheRegisterRange :
    (({ State.reset with i := 4080 } : State).i.toNat + (15 : Reg).toNat ≤ 4095 ∧ (15 : Reg).toNat ≤ (15 : Reg).toNat ∧
      (4079 < 4080 ∨ 4080 + (15 : Reg).toNat < 4079)) ∧
    (({ State.reset with i := 4095 } : State).i.toNat + (0 : Reg).toNat ≤ 4095 ∧
      State.reset.cfg.loadStoreIncrementsI = false) ∧
    ({ Config.defaults with loadStoreIncrementsI := true } : Config).loadStoreIncrementsI = true ∧
    4095 < ({ State.reset with i := 4081 } : State).i.toNat + (15 : Reg).toNat := by decide

theorem witness_LoadReadsTheRegisterRange :
    (({ State.reset with i := 4081 } : State).i.toNat + (14 : Reg).toNat ≤ 4095 ∧ (14 : Reg).toNat ≤ (14 : Reg).toNat ∧
      (14 : Reg).toNat < (15 : Reg).toNat) ∧
    (({ State.reset with i := 4095 } : State).i.toNat + (0 : Reg).toNat ≤ 4095 ∧
      State.reset.cfg.loadStoreIncrementsI = false) ∧
    ({ Config.defaults with loadStoreIncrementsI := true } : Config).loadStoreIncrementsI = true ∧
    4095 < ({ State.reset with i := 4096 } : State).i.toNat + (0 : Reg).toNat := by decide

theorem witness_StoreThenLoadRestoresRegisters :
    ({ ramp with i := 4080 } : State).i.toNat + (15 : Reg).toNat ≤ 4095 ∧
    ({ ramp with i := 4080 } : State).cfg.loadStoreIncrementsI = false ∧ (15 : Reg).toNat ≤ (15 : Reg).toNat := by decide

/-- FX55 with X = 15 at I, PC going to I + 14. -/
theorem witness_StoredBytesAreFetchedNext :
    ramp.i.toNat + (15 : Reg).toNat ≤ 4095 ∧ (14 : Reg).toNat + 1 = (15 : Reg).toNat ∧
    (15 : Reg).toNat ≤ (15 : Reg).toNat ∧
    (({ ramp with pc := 0x30C } : State).pc + 2).toNat = ({ ramp with pc := 0x30C } : State).i.toNat + (14 : Reg).toNat := by
  decide

/-- N = 0 with I above memory, the last row in memory, and one above it. -/
theorem witness_DrawFlipsTheSpritesPixels :
    ((0 : Nibble).toNat = 0 ∨ ({ State.reset with i := 65535 } : State).i.toNat + (0 : Nibble).toNat ≤ 4096) ∧
    ((1 : Nibble).toNat = 0 ∨ ({ State.reset with i := 4095 } : State).i.toNat + (1 : Nibble).toNat ≤ 4096) ∧
    ((2 : Nibble).toNat ≠ 0 ∧ 4096 < ({ State.reset with i := 4095 } : State).i.toNat + (2 : Nibble).toNat) := by decide

/-- A sprite at I whose one row is 0x81. -/
def dots : State := poke 0x300 [0x81] { State.reset with i := 0x300 }

/-- The leftmost and the rightmost pixel of the row, the second at the edge of the grid. -/
theorem witness_spriteBit : spriteBit dots 1 56 31 56 31 ∧ spriteBit dots 1 56 31 63 31 :=
  ⟨⟨0, 0, 0x81, by decide⟩, ⟨0, 7, 0x81, by decide⟩⟩

/-- A pixel between them is not of the sprite; nor is any of a sprite without rows. -/
theorem witness_not_spriteBit : ¬ spriteBit dots 1 56 31 57 31 ∧ ∀ px py, ¬ spriteBit dots 0 56 31 px py := by
  refine ⟨?_, fun px py h => ?_⟩
  · rintro ⟨r, col, b, hr, -, hx, -, hb, hbit⟩
    have h1 : col = 1 := by have : (57 : Fin 64).val = 57 := rfl; omega
    have h2 : r = 0 := by omega
    subst h1 h2
    have : b = 0x81 := by
      have e : dots.memRead (dots.i.toNat + 0) = .ok 0x81 := by decide
      rw [e] at hb; exact (Except.ok.inj hb).symm
    subst this; exact absurd hbit (by decide)
  · obtain ⟨r, _, _, h, _⟩ := h; exact absurd h (by omega)

/-- A set pixel under the sprite, and none. -/
theorem witness_Draw_collision :
    (∃ px py, spriteBit { dots with disp := State.reset.disp.set 31 1 } 1 56 31 px py ∧
      ({ dots with disp := State.reset.disp.set 31 1 } : State).pixel px py = true) ∧
    ∀ px py, spriteBit dots 1 56 31 px py → dots.pixel px py = false :=
  ⟨⟨63, 31, ⟨0, 7, 0x81, by decide⟩, by decide⟩, fun px py _ => by simp [State.pixel, dots, poke, State.reset]⟩

theorem witness_DrawingTwiceRestoresTheDisplay :
    (0 : Reg) ≠ regF ∧ (14 : Reg) ≠ regF ∧ ((1 : Nibble).toNat = 0 ∨ dots.i.toNat + (1 : Nibble).toNat ≤ 4096) := by decide

theorem witness_KeySkipsFollowTheLatch :
    ((regs 0 0 0).getV 2).toNat = (0 : Fin 16).val ∧ ((regs 0 15 0).getV 2).toNat = (15 : Fin 16).val ∧
    15 < ((regs 0 16 0).getV 2).toNat := by decide

/-- Key 0, key 15 alone, 3 before 7, and none. -/
theorem witness_KeyWaitTakesTheLeastKey :
    ((latch [0, 15])[(0 : Fin 16)] = true ∧ ∀ j : Fin 16, j < 0 → (latch [0, 15])[j] = false) ∧
    ((latch [15])[(15 : Fin 16)] = true ∧ ∀ j : Fin 16, j < 15 → (latch [15])[j] = false) ∧
    ((latch [3, 7])[(3 : Fin 16)] = true ∧ ∀ j : Fin 16, j < 3 → (latch [3, 7])[j] = false) ∧
    ∀ k : Fin 16, State.reset.keys[k] = false := by decide

theorem witness_TimerInstructionsMoveTheirByte : (4 : Reg) ≠ 3 := by decide

end Sys2Proof.Tests
end

section
/-! Control transfer (spec/41_control_flow.md): writing PC is all a jump does (R105). -/

namespace Sys2Proof.Machine

/-! ### Targets -/

/-- NNN is zero-extended: as a word it is the number its 12 bits are (R62). -/
@[simp] theorem immWord_toNat (nnn : Imm12) : (immWord nnn).toNat = nnn.toNat :=
  BitVec.toNat_setWidth_of_le (by decide)

theorem State.jumpSum_toNat (s : State) (nnn : Imm12) :
    (s.jumpSum nnn).toNat = (nnn.toNat + (s.getV 0).toNat) % 65536 :=
  BitVec.toNat_ofNat _ 16

/-! ### The frame of a jump -/

theorem State.unchangedBut_setPc (s : State) (w : Word) : UnchangedBut [.pc] s (s.setPc w) := by
  intro p hp
  cases p with
  | pc => simp at hp
  | _ => simp [Piece.same]

/-! ### The jumps -/

theorem exec_jp (nnn : Imm12) (s : State) : exec (.jp nnn) s = .next (s.setPc (immWord nnn)) := rfl

theorem exec_jpV0 (nnn : Imm12) (s : State) : exec (.jpV0 nnn) s = .next (s.setPc (s.jumpSum nnn)) := rfl

/-- Settles O32: each jump writes its target to PC, and a write to PC changes nothing else. -/
theorem jumpsGoToTheirTarget : Obligations.JumpsGoToTheirTarget := by
  intro nnn s
  constructor
  · exact ⟨_, exec_jp nnn s, immWord_toNat nnn, s.unchangedBut_setPc _⟩
  · exact ⟨_, exec_jpV0 nnn s, s.jumpSum_toNat nnn, s.unchangedBut_setPc _⟩

end Sys2Proof.Machine
end

section
/-! Register load and arithmetic (spec/43_register_alu.md): every instruction here writes VX, perhaps VF after it, and
advances PC by 2. What that write leaves is said once, for any result and any flag. -/

namespace Sys2Proof.Machine

variable (s : State)

/-! ### Frames of the register writes -/

theorem State.unchangedBut_setV (x : Reg) (b : Byte) : UnchangedBut [.v] s (s.setV x b) := by
  intro p hp
  cases p with
  | v => simp at hp
  | _ => simp [Piece.same]

theorem State.unchangedBut_setWithFlag (x : Reg) (b f : Byte) : UnchangedBut [.v] s (s.setWithFlag x b f) :=
  (s.unchangedBut_setV x b).trans ((s.setV x b).unchangedBut_setV regF f)

/-- The advance adds PC to what a register write changed. -/
theorem UnchangedBut.advance {s t : State} (h : UnchangedBut [.v] s t) (n : Word) :
    UnchangedBut [.v, .pc] s (t.advance n) :=
  (h.mono (by simp)).trans ((t.unchangedBut_setPc (t.pc + n)).mono (by simp))

/-- After VX is written and PC advanced, PC is two higher and nothing but VX and PC changed. -/
theorem State.setV_advance_frame (x : Reg) (b : Byte) :
    ((s.setV x b).advance 2).pc = s.pc + 2 ∧
    (∀ r, r ≠ x → ((s.setV x b).advance 2).getV r = s.getV r) ∧
    UnchangedBut [.v, .pc] s ((s.setV x b).advance 2) :=
  ⟨rfl, fun r hr => by simp [hr], (s.unchangedBut_setV x b).advance 2⟩

/-- After VX and then VF are written and PC advanced: VF holds the flag whatever X is, VX the result unless X = 15, and
nothing else changed (R88, R132). The flag and the result are given by the numbers they are. -/
theorem State.setWithFlag_advance_spec (x : Reg) {b f : Byte} {result flag : Nat}
    (hf : f.toNat = flag) (hb : b.toNat = result) :
    ((s.setWithFlag x b f).advance 2).pc = s.pc + 2 ∧
    (((s.setWithFlag x b f).advance 2).getV regF).toNat = flag ∧
    (x ≠ regF → (((s.setWithFlag x b f).advance 2).getV x).toNat = result) ∧
    (∀ r, r ≠ x → r ≠ regF → ((s.setWithFlag x b f).advance 2).getV r = s.getV r) ∧
    UnchangedBut [.v, .pc] s ((s.setWithFlag x b f).advance 2) := by
  refine ⟨rfl, ?flag, fun hx => ?result, fun r hx hF => ?others, (s.unchangedBut_setWithFlag x b f).advance 2⟩
  case flag => simp [hf]
  case result => simp [hx, hb]
  case others => simp [hx, hF]

/-! ### Flags and differences as numbers -/

theorem flagByte_toNat (c : Bool) : (flagByte c).toNat = if c then 1 else 0 := by cases c <;> rfl

theorem carryFlag_toNat (a b : Byte) : (carryFlag a b).toNat = if a.toNat + b.toNat > 255 then 1 else 0 := by
  simp [carryFlag, flagByte_toNat]

theorem notBorrowFlag_toNat (a b : Byte) : (notBorrowFlag a b).toNat = if b.toNat > a.toNat then 0 else 1 := by
  by_cases h : b.toNat > a.toNat <;> simp [notBorrowFlag, flagByte_toNat, h]

/-- The difference modulo 256 (R127, R129); 256 comes first so that the subtraction of naturals never truncates. -/
theorem byte_sub_toNat (a b : Byte) : (a - b).toNat = (a.toNat + 256 - b.toNat) % 256 := by
  rw [BitVec.toNat_sub]
  omega

end Sys2Proof.Machine
end

section
/-! The instructions of register load and arithmetic, each as the register write it performs, and their statements. -/

namespace Sys2Proof.Machine

/-! ### The instructions -/

theorem exec_ldImm (x : Reg) (nn : Byte) (s : State) :
    exec (.ldImm x nn) s = .next ((s.setV x nn).advance 2) := rfl

theorem exec_addImm (x : Reg) (nn : Byte) (s : State) :
    exec (.addImm x nn) s = .next ((s.setV x (s.getV x + nn)).advance 2) := rfl

theorem exec_ldReg (x y : Reg) (s : State) :
    exec (.ldReg x y) s = .next ((s.setV x (s.getV y)).advance 2) := rfl

theorem exec_addReg (x y : Reg) (s : State) : exec (.addReg x y) s =
    .next ((s.setWithFlag x (s.getV x + s.getV y) (carryFlag (s.getV x) (s.getV y))).advance 2) := rfl

theorem exec_sub (x y : Reg) (s : State) : exec (.sub x y) s =
    .next ((s.setWithFlag x (s.getV x - s.getV y) (notBorrowFlag (s.getV x) (s.getV y))).advance 2) := rfl

theorem exec_subn (x y : Reg) (s : State) : exec (.subn x y) s =
    .next ((s.setWithFlag x (s.getV y - s.getV x) (notBorrowFlag (s.getV y) (s.getV x))).advance 2) := rfl

/-! ### The statements -/

/-- Settles O40: the flag is the carry of the old operands, the result their sum, and VF is written last. -/
theorem addSetsCarry : Obligations.AddSetsCarry := fun x y s =>
  ⟨_, exec_addReg x y s, s.setWithFlag_advance_spec x (carryFlag_toNat _ _) (BitVec.toNat_add _ _)⟩

/-- Settles O41: SUB and SUBN are one difference with its operands exchanged, the flag likewise. -/
theorem subtractSetsNotBorrow : Obligations.SubtractSetsNotBorrow := by
  intro x y s
  constructor
  · exact ⟨_, exec_sub x y s, s.setWithFlag_advance_spec x (notBorrowFlag_toNat _ _) (byte_sub_toNat _ _)⟩
  · exact ⟨_, exec_subn x y s, s.setWithFlag_advance_spec x (notBorrowFlag_toNat _ _) (byte_sub_toNat _ _)⟩

/-- Settles O38: each of the three is one register write and the advance. -/
theorem loadsAndImmediateAdd : Obligations.LoadsAndImmediateAdd := by
  intro x y nn s
  refine ⟨?ldImm, ?addImm, ?ldReg⟩
  case ldImm => exact ⟨_, exec_ldImm x nn s, by simp, s.setV_advance_frame x _⟩
  case addImm => exact ⟨_, exec_addImm x nn s, by simp, s.setV_advance_frame x _⟩
  case ldReg => exact ⟨_, exec_ldReg x y s, by simp, s.setV_advance_frame x _⟩

end Sys2Proof.Machine
end

section
/-! Stores to data memory (spec/44_index_memory.md R146): bytes stored from I on, what each address reads afterwards,
and the frames of a write to I, of a store, and of the advance that ends an instruction. -/

namespace Sys2Proof.Machine

variable (s : State)

/-! ### Frames -/

theorem State.unchangedBut_setI (w : Word) : UnchangedBut [.i] s (s.setI w) := by
  intro p hp
  cases p with
  | i => simp at hp
  | _ => simp [Piece.same]

/-- Whatever an operation may change, the advance after it adds PC and nothing else. -/
theorem UnchangedBut.append_advance {ps : List Piece} {s t : State} (h : UnchangedBut ps s t) (n : Word) :
    UnchangedBut (ps ++ [.pc]) s (t.advance n) :=
  (h.mono fun _ => List.mem_append_left _).trans ((t.unchangedBut_setPc (t.pc + n)).mono (by simp))

/-! ### Bytes stored from I on -/

/-- MEM with `us` stored from address I on: what FX33 and FX55 do to memory where the bytes fit. -/
def State.storedFromI (s : State) (us : List Byte) : State :=
  { s with mem := Memory.writeList s.cfg.font s.i.toNat us s.mem }

theorem State.unchangedBut_storedFromI (us : List Byte) : UnchangedBut [.mem] s (s.storedFromI us) := by
  intro p hp
  cases p with
  | mem => simp at hp
  | v => exact fun r => State.getV_congr rfl r
  | _ => rfl

/-- The address I + k holds byte k of what was stored. -/
theorem State.memRead_storedFromI {us : List Byte} {k : Nat} {u : Byte} (hk : us[k]? = some u)
    (ha : s.i.toNat + k < memSize) : (s.storedFromI us).memRead (s.i.toNat + k) = .ok u := by
  rw [State.memRead_ok ha]
  simp [State.storedFromI, Memory.read_writeList, hk]

/-- Below I and from I + the number of bytes on, nothing changes. -/
theorem State.memRead_storedFromI_outside (us : List Byte) {a : Nat}
    (h : a < s.i.toNat ∨ s.i.toNat + us.length ≤ a) : (s.storedFromI us).memRead a = s.memRead a := by
  unfold State.memRead
  rcases h with below | above
  · simp [State.storedFromI, Memory.read_writeList, Nat.not_le.mpr below]
  · have hnone : us[a - s.i.toNat]? = none := List.getElem?_eq_none (by omega)
    simp [State.storedFromI, Memory.read_writeList, hnone]

end Sys2Proof.Machine
end

section
/-! ANNN and FX33 (spec/44_index_memory.md R140, R143) and their statements. -/

namespace Sys2Proof.Machine

/-! ### The instructions -/

theorem exec_ldI (nnn : Imm12) (s : State) : exec (.ldI nnn) s = .next ((s.setI (immWord nnn)).advance 2) := rfl

theorem exec_ldB_of_le (x : Reg) {s : State} (h : s.i.toNat ≤ 4093) :
    exec (.ldB x) s = .next ((s.storedFromI (decimalDigits (s.getV x))).advance 2) :=
  (execLdB_eq x s).trans (if_pos (show s.i.toNat + 3 ≤ 4096 by omega))

theorem exec_ldB_of_gt (x : Reg) {s : State} (h : 4093 < s.i.toNat) :
    exec (.ldB x) s = .fault (.memoryOutOfRange (max s.i.toNat 4096)) :=
  (execLdB_eq x s).trans (if_neg (show ¬ s.i.toNat + 3 ≤ 4096 by omega))

/-! ### The decimal digits -/

/-- A byte has three decimal digits, hundreds first, and each fits in a byte (R143). -/
theorem decimalDigits_spec (b : Byte) : ∃ hundreds tens ones : Byte, decimalDigits b = [hundreds, tens, ones] ∧
    hundreds.toNat = b.toNat / 100 ∧ tens.toNat = b.toNat / 10 % 10 ∧ ones.toNat = b.toNat % 10 := by
  have hb := b.isLt
  refine ⟨_, _, _, rfl, ?_, ?_, ?_⟩ <;> exact (BitVec.toNat_ofNat _ 8).trans (Nat.mod_eq_of_lt (by omega))

/-! ### The statements -/

/-- Settles O46: the three digits are stored from I on where they fit below 4096, and the first address past memory is
reported where they do not. -/
theorem decimalDigitsAreStored : Obligations.DecimalDigitsAreStored := by
  intro x s
  refine ⟨fun hi => ?stored, fun hi => exec_ldB_of_gt x hi⟩
  obtain ⟨hundreds, tens, ones, hdigits, hhundreds, htens, hones⟩ := decimalDigits_spec (s.getV x)
  have hexec := exec_ldB_of_le x hi
  rw [hdigits] at hexec
  have digitAt {k : Nat} {u : Byte} (hk : [hundreds, tens, ones][k]? = some u) (hlt : k < 3) :
      (s.storedFromI [hundreds, tens, ones]).memRead (s.i.toNat + k) = .ok u :=
    s.memRead_storedFromI hk (show s.i.toNat + k < 4096 by omega)
  exact ⟨_, hundreds, tens, ones, hexec,
    digitAt (k := 0) rfl (by decide), hhundreds,
    digitAt (k := 1) rfl (by decide), htens,
    digitAt (k := 2) rfl (by decide), hones,
    fun a ha => s.memRead_storedFromI_outside _ ha,
    rfl, (s.unchangedBut_storedFromI _).append_advance 2⟩

/-- Settles O44: the immediate goes to I, and the advance is all that follows. -/
theorem loadIndexImmediate : Obligations.LoadIndexImmediate := fun nnn s =>
  ⟨_, exec_ldI nnn s, immWord_toNat nnn, rfl, (s.unchangedBut_setI _).append_advance 2⟩

end Sys2Proof.Machine
end

section
/-! 00E0 (spec/45_display.md R150): DISP is painted with the blank display, and its statement. -/

namespace Sys2Proof.Machine

/-! ### Painting the display -/

theorem State.unchangedBut_paint (s : State) (d : Vector DispRow 32) : UnchangedBut [.disp, .dirty] s (s.paint d) := by
  intro p hp
  cases p with
  | disp | dirty => simp at hp
  | _ => simp [Piece.same]

/-- On a display whose rows are all zero, every pixel is 0. -/
theorem State.pixel_of_blank {s : State} (h : s.disp = Vector.replicate 32 0) (x : Fin 64) (y : Fin 32) :
    s.pixel x y = false := by
  simp [State.pixel, h]

/-! ### The instruction -/

theorem exec_cls (s : State) : exec .cls s = .next ((s.paint (Vector.replicate 32 0)).advance 2) := rfl

/-- Settles O51: the blank display is painted whatever DISP was, and the advance is all that follows. -/
theorem clearScreen : Obligations.ClearScreen := fun s =>
  ⟨_, exec_cls s, State.pixel_of_blank rfl, rfl, rfl, (s.unchangedBut_paint _).append_advance 2⟩

end Sys2Proof.Machine
end

section
/-! The decoder and the encoder (spec/30_encoding.md): the round trips, the opcode map, and the illegal words. -/

namespace Sys2Proof

/-! ### A word as its fields, by format (R61, R62) -/

theorem encAddr_fields (w : Word) : encAddr (opOf w) (nnnOf w) = w := by
  apply BitVec.eq_of_toNat_eq
  rw [encAddr_toNat, opOf_toNat, nnnOf_toNat]
  omega

theorem encRegImm_fields (w : Word) : encRegImm (opOf w) (xOf w) (nnOf w) = w := by
  apply BitVec.eq_of_toNat_eq
  rw [encRegImm_toNat, opOf_toNat, xOf_toNat, nnOf_toNat]
  omega

/-! ### Decoding an encoded word -/

/-- A SYS word is decoded as SYS unless it is one of the two fixed words of family 0 (R64). -/
theorem decodeFamily0_encAddr {nnn : Imm12} (hcls : nnn ≠ 0x0E0#12) (hret : nnn ≠ 0x0EE#12) :
    decodeFamily0 (encAddr 0x0#4 nnn) = .sys nnn := by
  have word_ne {k : Imm12} (hk : nnn ≠ k) : encAddr 0x0#4 nnn ≠ encAddr 0x0#4 k := fun h =>
    hk (by simpa using congrArg nnnOf h)
  calc decodeFamily0 (encAddr 0x0#4 nnn)
    _ = _ := if_neg (word_ne hcls)
    _ = .sys (nnnOf (encAddr 0x0#4 nnn)) := if_neg (word_ne hret)
    _ = .sys nnn := by rw [nnnOf_encAddr]

/-- Settles O1: the fields of an encoded word are the operands, format by format. -/
theorem decodeOfEncodeIsIdentity : Obligations.DecodeOfEncodeIsIdentity := by
  intro i hwf
  cases i with
  | cls | ret => rfl
  | sys nnn =>
    obtain ⟨hcls, hret⟩ : nnn ≠ 0x0E0#12 ∧ nnn ≠ 0x0EE#12 := by simpa [Instr.wellFormed] using hwf
    simp [decodeWord, encode, decodeFamily0_encAddr hcls hret]
  | jp | call | ldI | jpV0 => simp [decodeWord, encode]
  | seImm | sneImm | ldImm | addImm | rnd => simp [decodeWord, encode]
  | seReg | sneReg | drw => simp [decodeWord, encode]
  | ldReg | or | and | xor | addReg | sub | shr | subn | shl => simp [decodeWord, encode, decodeFamily8]
  | skp | sknp => simp [decodeWord, encode, decodeFamilyE]
  | ldVxDt | ldVxK | ldDtVx | ldStVx | addI | ldF | ldB | store | load => simp [decodeWord, encode, decodeFamilyF]

/-! ### Encoding a decoded word -/

theorem encAddr_eq_word {w : Word} {op : Nibble} (hop : (opOf w).toNat = op.toNat) : encAddr op (nnnOf w) = w := by
  rw [← BitVec.eq_of_toNat_eq hop, encAddr_fields]

theorem encRegImm_eq_word {w : Word} {op : Nibble} {nn : Byte} (hop : (opOf w).toNat = op.toNat)
    (hnn : (nnOf w).toNat = nn.toNat) : encRegImm op (xOf w) nn = w := by
  rw [← BitVec.eq_of_toNat_eq hop, ← BitVec.eq_of_toNat_eq hnn, encRegImm_fields]

theorem encRegReg_eq_word {w : Word} {op n : Nibble} (hop : (opOf w).toNat = op.toNat)
    (hn : (nOf w).toNat = n.toNat) : encRegReg op (xOf w) (yOf w) n = w := by
  rw [← BitVec.eq_of_toNat_eq hop, ← BitVec.eq_of_toNat_eq hn, ← word_eq_nibbles]

section
variable {w : Word} {i : Instr}

/-- A family-0 word is one of the two fixed words or a SYS, which then is neither of them (R64). -/
theorem encode_decodeFamily0 (hop : (opOf w).toNat = 0) :
    encode (decodeFamily0 w) = w ∧ (decodeFamily0 w).wellFormed = true := by
  have hsys : encAddr 0x0#4 (nnnOf w) = w := encAddr_eq_word hop
  unfold decodeFamily0
  split_ifs with hcls hret
  · exact ⟨hcls.symm, rfl⟩
  · exact ⟨hret.symm, rfl⟩
  · refine ⟨hsys, ?_⟩
    have nnn_ne {k : Imm12} (hk : w ≠ encAddr 0x0#4 k) : nnnOf w ≠ k := fun e => hk (e ▸ hsys.symm)
    simp only [Instr.wellFormed, Bool.and_eq_true, bne_iff_ne]
    exact ⟨nnn_ne hcls, nnn_ne hret⟩

theorem encode_of_decodeFamily8 (hop : (opOf w).toNat = 8) (h : decodeFamily8 w = .ok i) :
    encode i = w ∧ i.wellFormed = true := by
  unfold decodeFamily8 at h
  split at h <;> cases h <;> exact ⟨encRegReg_eq_word hop ‹_›, rfl⟩

theorem encode_of_decodeFamilyE (hop : (opOf w).toNat = 14) (h : decodeFamilyE w = .ok i) :
    encode i = w ∧ i.wellFormed = true := by
  unfold decodeFamilyE at h
  split at h <;> cases h <;> exact ⟨encRegImm_eq_word hop ‹_›, rfl⟩

theorem encode_of_decodeFamilyF (hop : (opOf w).toNat = 15) (h : decodeFamilyF w = .ok i) :
    encode i = w ∧ i.wellFormed = true := by
  unfold decodeFamilyF at h
  split at h <;> cases h <;> exact ⟨encRegImm_eq_word hop ‹_›, rfl⟩

end

/-- Settles O2: the family gives the top nibble, its format the rest of the word. -/
theorem encodeOfDecodeIsTheWord : Obligations.EncodeOfDecodeIsTheWord := by
  intro w i h
  unfold decodeWord at h
  split at h
  case h_1 hop => cases h; exact encode_decodeFamily0 hop
  case h_2 | h_3 | h_11 | h_12 => cases h; exact ⟨encAddr_eq_word ‹_›, rfl⟩
  case h_4 | h_5 | h_7 | h_8 | h_13 => cases h; exact ⟨encRegImm_eq_word ‹_› rfl, rfl⟩
  case h_6 | h_10 | h_14 => cases h; exact ⟨encRegReg_eq_word ‹_› rfl, rfl⟩
  case h_9 hop => exact encode_of_decodeFamily8 hop h
  case h_15 hop => exact encode_of_decodeFamilyE hop h
  case h_16 =>
    simp only [imp_false] at *
    exact encode_of_decodeFamilyF (by omega) h

/-! ### The rows of the opcode map (R66): which fields each mask compares -/

section
variable (w p : Word)

@[simp] theorem maskFFFF_matches : (w &&& 0xFFFF#16 == p) =
    decide ((opOf w).toNat = p.toNat / 4096 ∧ (nnnOf w).toNat = p.toNat % 4096) := by
  rw [and_maskFFFF, Bool.eq_iff_iff]
  simp only [beq_iff_eq, decide_eq_true_eq, ← BitVec.toNat_inj, opOf_toNat, nnnOf_toNat]
  omega

@[simp] theorem maskF000_matches : (w &&& 0xF000#16 == p) =
    decide ((opOf w).toNat = p.toNat / 4096 ∧ p.toNat % 4096 = 0) := by
  rw [and_maskF000, Bool.eq_iff_iff]
  simp only [beq_iff_eq, decide_eq_true_eq, ← BitVec.toNat_inj, encRegReg_toNat, BitVec.toNat_ofNat]
  omega

@[simp] theorem maskF00F_matches : (w &&& 0xF00F#16 == p) =
    decide ((opOf w).toNat = p.toNat / 4096 ∧ (nOf w).toNat = p.toNat % 16 ∧ p.toNat / 16 % 256 = 0) := by
  rw [and_maskF00F, Bool.eq_iff_iff]
  simp only [beq_iff_eq, decide_eq_true_eq, ← BitVec.toNat_inj, encRegReg_toNat, BitVec.toNat_ofNat]
  omega

@[simp] theorem maskF0FF_matches : (w &&& 0xF0FF#16 == p) =
    decide ((opOf w).toNat = p.toNat / 4096 ∧ (nnOf w).toNat = p.toNat % 256 ∧ p.toNat / 256 % 16 = 0) := by
  rw [and_maskF0FF, Bool.eq_iff_iff]
  simp only [beq_iff_eq, decide_eq_true_eq, ← BitVec.toNat_inj, encRegReg_toNat, BitVec.toNat_ofNat, yOf_toNat,
    nOf_toNat, nnOf_toNat]
  omega

end

/-! ### The opcode map and the two-level dispatch, family by family -/

section
variable {w : Word}

theorem decodeByRows_family0 (hop : (opOf w).toNat = 0) : decodeByRows w = some (decodeFamily0 w) := by
  have word_ne {p : Word} (h : w ≠ p) : (nnnOf w).toNat ≠ p.toNat := by
    rw [opOf_toNat] at hop
    rw [nnnOf_toNat]
    exact fun e => h (BitVec.eq_of_toNat_eq (by omega))
  unfold decodeFamily0
  split_ifs with hcls hret
  · subst hcls; rfl
  · subst hret; rfl
  · have hcls' : (nnnOf w).toNat ≠ 0xE0 := word_ne hcls
    have hret' : (nnnOf w).toNat ≠ 0xEE := word_ne hret
    simp [decodeByRows, opcodeRows, opcodeRowsA, hop, hcls', hret']

theorem decodeByRows_family8 (hop : (opOf w).toNat = 8) : decodeByRows w = (decodeFamily8 w).toOption := by
  unfold decodeFamily8
  split <;> simp_all [decodeByRows, opcodeRows, opcodeRowsA, opcodeRowsB, opcodeRowsC, opcodeRowsD,
    Except.toOption]

theorem decodeByRows_familyE (hop : (opOf w).toNat = 14) : decodeByRows w = (decodeFamilyE w).toOption := by
  unfold decodeFamilyE
  split <;> simp_all [decodeByRows, opcodeRows, opcodeRowsA, opcodeRowsB, opcodeRowsC, opcodeRowsD,
    Except.toOption]

theorem decodeByRows_familyF (hop : (opOf w).toNat = 15) : decodeByRows w = (decodeFamilyF w).toOption := by
  unfold decodeFamilyF
  split <;> simp_all [decodeByRows, opcodeRows, opcodeRowsA, opcodeRowsB, opcodeRowsC, opcodeRowsD,
    Except.toOption]

end

/-- Settles O3: in a family of one format one row is left by its top nibble, in the others the dispatch of the family
tries the values its rows compare. -/
theorem decoderFollowsTheOpcodeMap : Obligations.DecoderFollowsTheOpcodeMap := by
  intro w
  unfold decodeWord
  split
  case h_1 hop => exact (decodeByRows_family0 hop).symm
  case h_9 hop => exact (decodeByRows_family8 hop).symm
  case h_15 hop => exact (decodeByRows_familyE hop).symm
  case h_16 =>
    simp only [imp_false] at *
    exact (decodeByRows_familyF (by omega)).symm
  all_goals
    simp [decodeByRows, opcodeRows, opcodeRowsA, opcodeRowsB, opcodeRowsC, Except.toOption, *]

/-! ### The illegal words (R67) -/

section
variable {w : Word}

theorem decodeFamily8_eq_error_iff :
    (∃ why, decodeFamily8 w = .error why) ↔ nOf w ∈ [0x8, 0x9, 0xA, 0xB, 0xC, 0xD, 0xF] := by
  unfold decodeFamily8
  split <;> simp_all [← BitVec.toNat_inj]
  omega

theorem decodeFamilyE_eq_error_iff : (∃ why, decodeFamilyE w = .error why) ↔ nnOf w ∉ [0x9E, 0xA1] := by
  unfold decodeFamilyE
  split <;> simp_all [← BitVec.toNat_inj]

theorem decodeFamilyF_eq_error_iff : (∃ why, decodeFamilyF w = .error why) ↔
    nnOf w ∉ [0x07, 0x0A, 0x15, 0x18, 0x1E, 0x29, 0x33, 0x55, 0x65] := by
  unfold decodeFamilyF
  split <;> simp_all [← BitVec.toNat_inj]

end

/-- A word that does not decode makes the instruction step raise DecodeFailure (R67, R171). -/
theorem instrStep_of_decodeWord_error {s : Machine.State} {w : Word} {why : DecodeReject} (hf : s.fetch = .ok w)
    (hd : decodeWord w = .error why) : Machine.instrStep s = .fault (.decodeFailure w) := by
  simp [Machine.instrStep, hf, hd]

/-- Settles O4: the decoder rejects a word in its families 8, E and F alone. -/
theorem illegalWordsAreExactlyThese : Obligations.IllegalWordsAreExactlyThese := by
  intro w
  refine ⟨?_, fun s hf ⟨why, hd⟩ => instrStep_of_decodeWord_error hf hd⟩
  rw [← decodeFamily8_eq_error_iff, ← decodeFamilyE_eq_error_iff, ← decodeFamilyF_eq_error_iff]
  unfold decodeWord
  split
  case h_16 =>
    simp only [imp_false] at *
    have hop : (opOf w).toNat = 15 := by omega
    simp [← BitVec.toNat_inj, hop]
  all_goals simp [← BitVec.toNat_inj, *]

/-- Settles O5: the words are decoded as they are written. -/
theorem sampleWordsDecode : Obligations.SampleWordsDecode := by
  unfold Obligations.SampleWordsDecode
  decide

end Sys2Proof
end

section
/-! Frames of the shared operations, and what each instruction that can stop answers. -/

namespace Sys2Proof.Machine

variable (s : State)

/-! ### Frames -/

theorem UnchangedBut.refl (ps : List Piece) : UnchangedBut ps s s := by
  intro p _
  cases p <;> simp [Piece.same]

/-- One operation after another changes at most what the two change. -/
theorem UnchangedBut.append {ps qs : List Piece} {s t u : State} (h : UnchangedBut ps s t)
    (k : UnchangedBut qs t u) : UnchangedBut (ps ++ qs) s u :=
  (h.mono fun _ => List.mem_append_left _).trans (k.mono fun _ => List.mem_append_right _)

/-- The frame of an instruction that ends with the advance, PC first. -/
theorem UnchangedBut.cons_advance {ps : List Piece} {s t : State} (h : UnchangedBut ps s t) (n : Word) :
    UnchangedBut (.pc :: ps) s (t.advance n) :=
  (h.append_advance n).mono fun _ hp => by simpa [or_comm] using hp

theorem State.unchangedBut_skipIf (c : Bool) : UnchangedBut [.pc] s (s.skipIf c) := s.unchangedBut_setPc _

theorem State.unchangedBut_push : UnchangedBut [.sp, .stack] s s.push := by
  intro p hp
  cases p with
  | sp | stack => simp at hp
  | _ => simp [Piece.same]

theorem State.unchangedBut_pop : UnchangedBut [.pc, .sp] s s.pop := by
  intro p hp
  cases p with
  | pc | sp => simp at hp
  | _ => simp [Piece.same]

theorem State.unchangedBut_nextRand : UnchangedBut [.randIn, .freeCtr] s s.nextRand := by
  intro p hp
  cases p with
  | randIn | freeCtr => simp at hp
  | _ => simp [Piece.same]

theorem State.unchangedBut_setAllV (v : Vector Byte 16) : UnchangedBut [.v] s (s.setAllV v) := by
  intro p hp
  cases p with
  | v => simp at hp
  | _ => simp [Piece.same]

theorem State.unchangedBut_setDt (b : Byte) : UnchangedBut [.dt] s (s.setDt b) := by
  intro p hp
  cases p with
  | dt => simp at hp
  | _ => simp [Piece.same]

theorem State.unchangedBut_setSt (b : Byte) : UnchangedBut [.st] s (s.setSt b) := by
  intro p hp
  cases p with
  | st => simp at hp
  | _ => simp [Piece.same]

/-! ### The instructions that reach memory -/

section
variable {p : Prop} [Decidable p] {t u : State} {c d : Fault}

theorem ite_eq_next_iff :
    (if p then .next t else .fault c : Host.Outcome State Fault Refusal) = .next u ↔ p ∧ u = t := by
  split <;> simp [*, eq_comm]

theorem ite_eq_fault_iff :
    (if p then .next t else .fault c : Host.Outcome State Fault Refusal) = .fault d ↔ ¬ p ∧ d = c := by
  split <;> simp [*, eq_comm]

end

theorem exec_ldB (x : Reg) : exec (.ldB x) s =
    if s.i.toNat + 3 ≤ 4096 then .next ((s.storedFromI (decimalDigits (s.getV x))).advance 2)
    else .fault (.memoryOutOfRange (max s.i.toNat 4096)) := execLdB_eq x s

theorem exec_store (x : Reg) : exec (.store x) s =
    if s.i.toNat + rangeCount x ≤ 4096 then
      .next (((s.storedFromI (s.regRange x)).setI (s.indexAfterRange x)).advance 2)
    else .fault (.memoryOutOfRange (max s.i.toNat 4096)) := execStore_eq x s

theorem exec_load (x : Reg) : exec (.load x) s =
    if s.i.toNat + rangeCount x ≤ 4096 then
      .next (((s.setAllV (s.withRange (s.bytesFrom s.i.toNat (rangeCount x)))).setI (s.indexAfterRange x)).advance 2)
    else .fault (.memoryOutOfRange (max s.i.toNat 4096)) := execLoad_eq x s

/-- The bytes of the sprite DXYN draws: N bytes from I on (R151). -/
def State.spriteBytes (n : Nibble) : List Byte := s.bytesFrom s.i.toNat n.toNat

/-- DISP and VF after DXYN has drawn its sprite. -/
def State.drawSprite (x y : Reg) (n : Nibble) : State :=
  (s.paint (drawn s.disp (s.spriteBytes n) (s.getV x) (s.getV y))).setV regF
    (collisionFlag s.disp (s.spriteBytes n) (s.getV x) (s.getV y))

theorem exec_drw (x y : Reg) (n : Nibble) : exec (.drw x y n) s =
    if n.toNat = 0 ∨ s.i.toNat + n.toNat ≤ 4096 then .next ((s.drawSprite x y n).advance 2)
    else .fault (.memoryOutOfRange (max s.i.toNat 4096)) := execDrw_eq x y n s

/-! ### The instructions that test a key -/

section
variable {s : State} {x : Reg}

theorem State.keyDown_of_eq {b : Byte} {k : Fin 16} (hk : b.toNat = k.val) : s.keyDown b = .ok s.keys[k] := by
  simp [State.keyDown, hk]

theorem State.keyDown_of_gt {b : Byte} (h : 15 < b.toNat) : s.keyDown b = .error (.keyIndexOutOfRange b) :=
  dif_neg (by omega)

theorem exec_skp_of_eq {k : Fin 16} (hk : (s.getV x).toNat = k.val) :
    exec (.skp x) s = .next (s.skipIf s.keys[k]) := by
  simp [exec, execSkp, State.keyDown_of_eq hk]

theorem exec_sknp_of_eq {k : Fin 16} (hk : (s.getV x).toNat = k.val) :
    exec (.sknp x) s = .next (s.skipIf !s.keys[k]) := by
  simp [exec, execSknp, State.keyDown_of_eq hk]

theorem exec_skp_of_gt (h : 15 < (s.getV x).toNat) : exec (.skp x) s = .fault (.keyIndexOutOfRange (s.getV x)) := by
  simp [exec, execSkp, State.keyDown_of_gt h]

theorem exec_sknp_of_gt (h : 15 < (s.getV x).toNat) : exec (.sknp x) s = .fault (.keyIndexOutOfRange (s.getV x)) := by
  simp [exec, execSknp, State.keyDown_of_gt h]

/-- A byte is a key number or it is above 15 (R173). -/
theorem byte_key_cases (b : Byte) : (∃ k : Fin 16, b.toNat = k.val) ∨ 15 < b.toNat :=
  (Nat.lt_or_ge b.toNat 16).imp (fun h => ⟨⟨b.toNat, h⟩, rfl⟩) id

end

/-! ### What can stop an instruction -/

/-- An instruction raises exactly two kinds of fatal condition: it reaches a byte above memory, or it takes a register
above 15 as a key number (R170 to R173). -/
theorem exec_eq_fault_iff (i : Instr) (c : Fault) : exec i s = .fault c ↔
    (accessCount i ≠ 0 ∧ 4096 < s.i.toNat + accessCount i ∧ c = .memoryOutOfRange (max s.i.toNat 4096)) ∨
    ∃ x, keyOperand i = some x ∧ 15 < (s.getV x).toNat ∧ c = .keyIndexOutOfRange (s.getV x) := by
  cases i with
  | ldB x => rw [exec_ldB, ite_eq_fault_iff, Nat.not_le]; simp [accessCount, keyOperand]
  | store x => rw [exec_store, ite_eq_fault_iff]; simp [accessCount, keyOperand, rangeCount]
  | load x => rw [exec_load, ite_eq_fault_iff]; simp [accessCount, keyOperand, rangeCount]
  | drw x y n => rw [exec_drw, ite_eq_fault_iff]; simp [accessCount, keyOperand, and_assoc]
  | skp x | sknp x =>
    rcases byte_key_cases (s.getV x) with ⟨k, hk⟩ | h
    · have hle : ¬ 15 < (s.getV x).toNat := by omega
      simp [exec_skp_of_eq hk, exec_sknp_of_eq hk, accessCount, keyOperand, hle]
    · simp [exec_skp_of_gt h, exec_sknp_of_gt h, accessCount, keyOperand, h, eq_comm]
  | _ => exact iff_of_false nofun (by simp [accessCount, keyOperand])

/-- An instruction completes or raises a fatal condition; it is never refused. -/
theorem exec_next_or_fault (i : Instr) : (∃ t, exec i s = .next t) ∨ ∃ c, exec i s = .fault c := by
  have ite_cases {p : Prop} [Decidable p] {t : State} {c : Fault} {o : Host.Outcome State Fault Refusal}
      (h : o = if p then .next t else .fault c) : (∃ t, o = .next t) ∨ ∃ c, o = .fault c := by
    split at h
    · exact .inl ⟨_, h⟩
    · exact .inr ⟨_, h⟩
  cases i with
  | ldB x => exact ite_cases (exec_ldB s x)
  | store x => exact ite_cases (exec_store s x)
  | load x => exact ite_cases (exec_load s x)
  | drw x y n => exact ite_cases (exec_drw s x y n)
  | skp x | sknp x =>
    rcases byte_key_cases (s.getV x) with ⟨k, hk⟩ | h
    · simp [exec_skp_of_eq hk, exec_sknp_of_eq hk]
    · simp [exec_skp_of_gt h, exec_sknp_of_gt h]
  | _ => exact .inl ⟨_, rfl⟩

/-! ### The statements on faults -/

/-- Settles O29: it is neither of the two kinds of fatal condition, and an instruction answers nothing else. -/
theorem noInstructionIsRefused : Obligations.NoInstructionIsRefused := by
  intro i s
  constructor
  · intro r h
    rcases exec_next_or_fault s i with ⟨t, ht⟩ | ⟨c, hc⟩
    · exact nomatch ht.symm.trans h
    · exact nomatch hc.symm.trans h
  · intro w h
    simpa using (exec_eq_fault_iff s i _).mp h

/-- Settles O28: of the two kinds of fatal condition it is the one of a key number. -/
theorem keyFaultsExactlyAboveFifteen : Obligations.KeyFaultsExactlyAboveFifteen := by
  intro i s v
  rw [exec_eq_fault_iff]
  constructor
  · rintro (⟨-, -, h⟩ | ⟨x, hx, h15, h⟩)
    · cases h
    · cases h; exact ⟨x, hx, rfl, h15⟩
  · rintro ⟨x, hx, rfl, h15⟩
    exact .inr ⟨x, hx, h15, rfl⟩

/-- Settles O27: for an instruction it is the kind of a data access; a read, a write and the fetch check the address
themselves. -/
theorem memoryFaultsExactlyOutOfRange : Obligations.MemoryFaultsExactlyOutOfRange := by
  have hsize : memSize = 4096 := rfl
  refine ⟨fun s a b c => ⟨?read, ?write⟩, fun i s a => ?instr, fun s a => ?fetch⟩
  case read => unfold State.memRead; split <;> simp [eq_comm] <;> omega
  case write => unfold State.memWrite; split <;> simp [eq_comm] <;> omega
  case instr =>
    rw [exec_eq_fault_iff]
    constructor
    · rintro (⟨hn, hgt, h⟩ | ⟨x, -, -, h⟩)
      · cases h; exact ⟨hn, by omega, rfl⟩
      · cases h
    · rintro ⟨hn, hgt, rfl⟩
      exact .inl ⟨hn, by omega, rfl⟩
  case fetch => rw [State.fetch_eq]; split <;> simp [eq_comm] <;> omega

end Sys2Proof.Machine
end

section
/-! What every instruction leaves unchanged: the frames by pieces, by registers, by bytes and of the stack. -/

namespace Sys2Proof.Machine

variable {s t : State}

/-! ### What an instruction that can stop leaves where it completes -/

theorem exec_ldB_next {x : Reg} (h : exec (.ldB x) s = .next t) : s.i.toNat + 3 ≤ 4096 ∧
    t = (s.storedFromI (decimalDigits (s.getV x))).advance 2 := by
  rwa [exec_ldB, ite_eq_next_iff] at h

theorem exec_store_next {x : Reg} (h : exec (.store x) s = .next t) : s.i.toNat + rangeCount x ≤ 4096 ∧
    t = ((s.storedFromI (s.regRange x)).setI (s.indexAfterRange x)).advance 2 := by
  rwa [exec_store, ite_eq_next_iff] at h

theorem exec_load_next {x : Reg} (h : exec (.load x) s = .next t) : s.i.toNat + rangeCount x ≤ 4096 ∧
    t = ((s.setAllV (s.withRange (s.bytesFrom s.i.toNat (rangeCount x)))).setI (s.indexAfterRange x)).advance 2 := by
  rwa [exec_load, ite_eq_next_iff] at h

theorem exec_drw_next {x y : Reg} {n : Nibble} (h : exec (.drw x y n) s = .next t) :
    (n.toNat = 0 ∨ s.i.toNat + n.toNat ≤ 4096) ∧ t = (s.drawSprite x y n).advance 2 := by
  rwa [exec_drw, ite_eq_next_iff] at h

theorem exec_skp_next {x : Reg} (h : exec (.skp x) s = .next t) : ∃ c, t = s.skipIf c := by
  rcases byte_key_cases (s.getV x) with ⟨k, hk⟩ | h15
  · exact ⟨_, (Host.Outcome.next.inj ((exec_skp_of_eq hk).symm.trans h)).symm⟩
  · exact nomatch (exec_skp_of_gt h15).symm.trans h

theorem exec_sknp_next {x : Reg} (h : exec (.sknp x) s = .next t) : ∃ c, t = s.skipIf c := by
  rcases byte_key_cases (s.getV x) with ⟨k, hk⟩ | h15
  · exact ⟨_, (Host.Outcome.next.inj ((exec_sknp_of_eq hk).symm.trans h)).symm⟩
  · exact nomatch (exec_sknp_of_gt h15).symm.trans h

theorem exec_ldVxK_of_some {x : Reg} {k : Fin 16} (h : s.firstKey = some k) :
    exec (.ldVxK x) s = .next ((s.setV x (BitVec.ofNat 8 k.val)).advance 2) := by
  simp [exec, execLdVxK, h]

theorem exec_ldVxK_of_none {x : Reg} (h : s.firstKey = none) : exec (.ldVxK x) s = .next s := by
  simp [exec, execLdVxK, h]

/-- FX0A takes a key or does nothing (R162). -/
theorem exec_ldVxK_next {x : Reg} (h : exec (.ldVxK x) s = .next t) :
    t = s ∨ ∃ b, t = (s.setV x b).advance 2 := by
  cases hk : s.firstKey with
  | some k => exact .inr ⟨_, (Host.Outcome.next.inj ((exec_ldVxK_of_some hk).symm.trans h)).symm⟩
  | none => exact .inl (Host.Outcome.next.inj ((exec_ldVxK_of_none hk).symm.trans h)).symm

theorem State.unchangedBut_drawSprite (s : State) (x y : Reg) (n : Nibble) :
    UnchangedBut [.v, .disp, .dirty] s (s.drawSprite x y n) :=
  ((s.unchangedBut_paint _).append (State.unchangedBut_setV _ _ _)).mono (by simp)

/-! ### The frame by pieces -/

/-- Settles O23: each instruction is the operations that write its pieces, mostly followed by the advance. -/
theorem instructionsWriteOnlyTheirPieces : Obligations.InstructionsWriteOnlyTheirPieces := by
  intro i s t h
  cases i with
  | sys | jp | jpV0 => obtain rfl := Host.Outcome.next.inj h; exact s.unchangedBut_setPc _
  | seImm | sneImm | seReg | sneReg => obtain rfl := Host.Outcome.next.inj h; exact s.unchangedBut_skipIf _
  | skp => obtain ⟨c, rfl⟩ := exec_skp_next h; exact s.unchangedBut_skipIf c
  | sknp => obtain ⟨c, rfl⟩ := exec_sknp_next h; exact s.unchangedBut_skipIf c
  | ret => obtain rfl := Host.Outcome.next.inj h; exact s.unchangedBut_pop
  | call =>
    obtain rfl := Host.Outcome.next.inj h
    exact (s.unchangedBut_push.append (s.push.unchangedBut_setPc _)).mono (by simp [mayWrite])
  | ldImm | addImm | ldReg | or | and | xor | ldVxDt =>
    obtain rfl := Host.Outcome.next.inj h
    exact (s.unchangedBut_setV _ _).cons_advance 2
  | addReg | sub | shr | subn | shl =>
    obtain rfl := Host.Outcome.next.inj h
    exact (s.unchangedBut_setWithFlag _ _ _).cons_advance 2
  | ldVxK =>
    obtain rfl | ⟨b, rfl⟩ := exec_ldVxK_next h
    · exact UnchangedBut.refl _ _
    · exact (s.unchangedBut_setV _ b).cons_advance 2
  | rnd =>
    obtain rfl := Host.Outcome.next.inj h
    exact ((s.unchangedBut_nextRand.append (s.nextRand.unchangedBut_setV _ _)).mono (by simp)).cons_advance 2
  | ldI | addI | ldF => obtain rfl := Host.Outcome.next.inj h; exact (s.unchangedBut_setI _).cons_advance 2
  | ldB => obtain ⟨-, rfl⟩ := exec_ldB_next h; exact (s.unchangedBut_storedFromI _).cons_advance 2
  | store =>
    obtain ⟨-, rfl⟩ := exec_store_next h
    exact ((s.unchangedBut_storedFromI _).append (State.unchangedBut_setI _ _)).cons_advance 2
  | load =>
    obtain ⟨-, rfl⟩ := exec_load_next h
    exact ((s.unchangedBut_setAllV _).append (State.unchangedBut_setI _ _)).cons_advance 2
  | cls => obtain rfl := Host.Outcome.next.inj h; exact (s.unchangedBut_paint _).cons_advance 2
  | drw => obtain ⟨-, rfl⟩ := exec_drw_next h; exact (s.unchangedBut_drawSprite _ _ _).cons_advance 2
  | ldDtVx => obtain rfl := Host.Outcome.next.inj h; exact (s.unchangedBut_setDt _).cons_advance 2
  | ldStVx => obtain rfl := Host.Outcome.next.inj h; exact (s.unchangedBut_setSt _).cons_advance 2

/-! ### The other frames: what the frame by pieces leaves to say -/

/-- Settles O24: an instruction that writes V at all writes VX, VF as the flag, or V0 to VX. -/
theorem instructionsWriteOnlyTheirRegisters : Obligations.InstructionsWriteOnlyTheirRegisters := by
  intro i s t r h hr
  cases i with
  | ldImm x | addImm x | ldReg x | or x | and x | xor x | ldVxDt x | rnd x =>
    obtain rfl := Host.Outcome.next.inj h
    have hx : r ≠ x := by simpa [mayWriteReg] using hr
    simp [hx]
  | addReg x | sub x | shr x | subn x | shl x =>
    obtain rfl := Host.Outcome.next.inj h
    obtain ⟨hx, hF⟩ : r ≠ x ∧ r ≠ regF := by simpa [mayWriteReg] using hr
    simp [hx, hF]
  | ldVxK x =>
    have hx : r ≠ x := by simpa [mayWriteReg] using hr
    obtain rfl | ⟨b, rfl⟩ := exec_ldVxK_next h
    · rfl
    · simp [hx]
  | load x =>
    obtain ⟨-, rfl⟩ := exec_load_next h
    have hlt : x.toNat < r.toNat := by simpa [mayWriteReg] using hr
    simp [rangeCount, Nat.not_lt.mpr hlt]
  | drw =>
    obtain ⟨-, rfl⟩ := exec_drw_next h
    have hF : r ≠ regF := by simpa [mayWriteReg] using hr
    simp [State.drawSprite, hF]
  | _ => exact instructionsWriteOnlyTheirPieces _ s t h .v (by simp [mayWrite]) r

/-- Settles O25: an instruction that writes MEM at all stores a run of bytes from I on. -/
theorem instructionsStoreOnlyFromI : Obligations.InstructionsStoreOnlyFromI := by
  intro i s t a h ha
  cases i with
  | ldB =>
    obtain ⟨-, rfl⟩ := exec_ldB_next h
    exact s.memRead_storedFromI_outside _ ha
  | store =>
    obtain ⟨-, rfl⟩ := exec_store_next h
    exact s.memRead_storedFromI_outside _ (by simpa [storedCount] using ha)
  | _ => exact instructionsWriteOnlyTheirPieces _ s t h .mem (by simp [mayWrite]) a

/-- Settles O26: only CALL and RET touch the stack, and CALL pushes to a slot below 15. -/
theorem stackSlotFifteenIsNeverWritten : Obligations.StackSlotFifteenIsNeverWritten := by
  intro i s t h
  cases i with
  | call =>
    obtain rfl := Host.Outcome.next.inj h
    rcases s.push_cases with ⟨hlt, hsp, hstack⟩ | ⟨-, hpush⟩
    · have hne : s.sp.val ≠ 15 := by omega
      simp [hsp, hstack, hne]
      omega
    · simp [hpush]
  | ret =>
    obtain rfl := Host.Outcome.next.inj h
    rcases s.pop_cases with ⟨hlt, hsp, -⟩ | ⟨-, hpop⟩
    · simp [hsp]
      omega
    · simp [hpop]
  | _ =>
    have hstack := instructionsWriteOnlyTheirPieces _ s t h .stack (by simp [mayWrite])
    have hsp := instructionsWriteOnlyTheirPieces _ s t h .sp (by simp [mayWrite])
    simp only [Piece.same] at hstack hsp
    simp [hstack, hsp]

end Sys2Proof.Machine
end

section
/-! ST, DIRTY, ICOUNT and HALT are read by no instruction (spec/10_state.md R10, column "read by"): an instruction does
the same to a state in which they are replaced, and leaves them replaced, perhaps by values of its own. -/

namespace Sys2Proof.Machine

section
variable (s : State) (st : Byte) (dirty : Bool) (icount : Nat) (halt : RunStatus)

theorem State.unchangedBut_withUnread :
    UnchangedBut [.st, .dirty, .icount, .halt] s (s.withUnread st dirty icount halt) := by
  intro p hp
  cases p with
  | st | dirty | icount | halt => simp at hp
  | v | mem => exact fun _ => rfl
  | _ => rfl

/-! ### The operations with a case split -/

theorem State.withUnread_push :
    (s.withUnread st dirty icount halt).push = s.push.withUnread st dirty icount halt := by
  by_cases h : s.sp.val < 15 <;> simp [State.push, State.withUnread, h]

theorem State.withUnread_pop :
    (s.withUnread st dirty icount halt).pop = s.pop.withUnread st dirty icount halt := by
  by_cases h : 0 < s.sp.val <;> simp [State.pop, State.withUnread, h, State.advance, State.setPc]

theorem State.withUnread_nextRand :
    (s.withUnread st dirty icount halt).nextRand = s.nextRand.withUnread st dirty icount halt := by
  cases h : s.randIn <;> simp [State.nextRand, State.withUnread, h]

end

/-- Two outcomes are alike: both complete, and the second state is the first with the four pieces replaced, or both
raise the same fatal condition. -/
def AlikeButUnread : Host.Outcome State Fault Refusal → Host.Outcome State Fault Refusal → Prop
  | .next t, o => ∃ st dirty icount halt, o = .next (t.withUnread st dirty icount halt)
  | .fault c, o => o = .fault c
  | .refused _, _ => False

/-- Outcomes that branch on one condition are alike if they are where it holds. -/
theorem alikeButUnread_ite {p : Prop} [Decidable p] {t : State} {c : Fault}
    {o₁ o₂ : Host.Outcome State Fault Refusal} (st : Byte) (dirty : Bool) (icount : Nat) (halt : RunStatus)
    (h₁ : o₁ = if p then .next t else .fault c)
    (h₂ : o₂ = if p then .next (t.withUnread st dirty icount halt) else .fault c) : AlikeButUnread o₁ o₂ := by
  subst h₁ h₂
  split
  · exact ⟨st, dirty, icount, halt, rfl⟩
  · rfl

theorem exec_alikeButUnread (i : Instr) (s : State) (st : Byte) (dirty : Bool) (icount : Nat) (halt : RunStatus) :
    AlikeButUnread (exec i s) (exec i (s.withUnread st dirty icount halt)) := by
  cases i with
  | cls => exact ⟨st, true, icount, halt, rfl⟩
  | ldStVx x => exact ⟨s.getV x, dirty, icount, halt, rfl⟩
  | ret => exact ⟨st, dirty, icount, halt, congrArg Host.Outcome.next (s.withUnread_pop st dirty icount halt)⟩
  | call nnn =>
    exact ⟨st, dirty, icount, halt,
      congrArg (fun u : State => Host.Outcome.next (u.setPc (immWord nnn))) (s.withUnread_push st dirty icount halt)⟩
  | rnd x nn =>
    exact ⟨st, dirty, icount, halt,
      congrArg (fun u : State => Host.Outcome.next ((u.setV x (s.randByte &&& nn)).advance 2))
        (s.withUnread_nextRand st dirty icount halt)⟩
  | ldB x => exact alikeButUnread_ite st dirty icount halt (exec_ldB s x) (exec_ldB _ x)
  | store x => exact alikeButUnread_ite st dirty icount halt (exec_store s x) (exec_store _ x)
  | load x => exact alikeButUnread_ite st dirty icount halt (exec_load s x) (exec_load _ x)
  | drw x y n => exact alikeButUnread_ite st true icount halt (exec_drw s x y n) (exec_drw _ x y n)
  | ldVxK x =>
    cases hk : s.firstKey with
    | some k =>
      rw [exec_ldVxK_of_some hk]
      exact ⟨st, dirty, icount, halt, exec_ldVxK_of_some hk⟩
    | none =>
      rw [exec_ldVxK_of_none hk]
      exact ⟨st, dirty, icount, halt, exec_ldVxK_of_none hk⟩
  | skp x =>
    rcases byte_key_cases (s.getV x) with ⟨k, hk⟩ | h
    · rw [exec_skp_of_eq hk]
      exact ⟨st, dirty, icount, halt, exec_skp_of_eq (s := s.withUnread st dirty icount halt) hk⟩
    · rw [exec_skp_of_gt h]
      exact exec_skp_of_gt h
  | sknp x =>
    rcases byte_key_cases (s.getV x) with ⟨k, hk⟩ | h
    · rw [exec_sknp_of_eq hk]
      exact ⟨st, dirty, icount, halt, exec_sknp_of_eq (s := s.withUnread st dirty icount halt) hk⟩
    · rw [exec_sknp_of_gt h]
      exact exec_sknp_of_gt h
  | _ => exact ⟨st, dirty, icount, halt, rfl⟩

/-- Settles O30: what an instruction leaves differs in the four pieces alone. -/
theorem noInstructionReadsSchedulerState : Obligations.NoInstructionReadsSchedulerState := by
  intro i s st dirty icount halt
  have h := exec_alikeButUnread i s st dirty icount halt
  cases hi : exec i s with
  | next t =>
    rw [hi] at h
    obtain ⟨st', dirty', icount', halt', hu⟩ := h
    exact ⟨_, hu, t.unchangedBut_withUnread st' dirty' icount' halt'⟩
  | fault c => rw [hi] at h; exact h
  | refused r => rw [hi] at h; exact h

end Sys2Proof.Machine
end

section
/-! The step (spec/40_execution_cycle.md R80 to R92): the fetch, an iteration as its instruction step, and what follows
a completed instruction. -/

namespace Sys2Proof.Machine

variable {s t u : State}

/-! ### The fetch -/

/-- Settles O7: at PC up to 4094 both bytes are in memory; above, the first byte out of range is at PC or at 4096. -/
theorem fetchReadsTwoBytesHighByteFirst : Obligations.FetchReadsTwoBytesHighByteFirst := by
  intro s
  refine ⟨fun h => ?inRange, fun h => ?last, fun h => ?above⟩
  case inRange =>
    exact ⟨_, _, _, State.memRead_ok (show s.pc.toNat < 4096 by omega),
      State.memRead_ok (show s.pc.toNat + 1 < 4096 by omega), s.fetch_eq.trans (if_pos h), wordOfBytes_toNat _ _⟩
  case last =>
    rw [s.fetch_eq, if_neg (by omega), h]
    rfl
  case above => rw [s.fetch_eq, if_neg (by omega), Nat.max_eq_left (by omega)]

/-- The fetch reads PC, MEM and the font alone. -/
theorem State.fetch_congr (hpc : t.pc = s.pc) (hmem : t.mem = s.mem) (hcfg : t.cfg = s.cfg) : t.fetch = s.fetch := by
  rw [t.fetch_eq, s.fetch_eq, hpc, hmem, hcfg]

/-! ### The state the instruction works on -/

theorem State.fetch_begun (s : State) : s.begun.fetch = s.fetch :=
  State.fetch_congr (by simp [State.begun]) (by simp [State.begun]) (by simp [State.begun])

theorem State.applyKeys_keys (s : State) : s.applyKeys.keys = s.keysIn.headD s.keys := by
  unfold State.applyKeys
  split <;> simp [*]

theorem State.applyKeys_keysIn (s : State) : s.applyKeys.keysIn = s.keysIn.tail := by
  unfold State.applyKeys
  split <;> simp [*]

theorem State.unchangedBut_begun (s : State) : UnchangedBut [.keys, .keysIn, .hostCtl, .out] s s.begun := by
  intro p hp
  cases p with
  | keys | keysIn | hostCtl | out => simp at hp
  | _ => simp [Piece.same, State.begun]

/-! ### A step that iterates -/

theorem step_of_iterates (h : s.iterates) : step s = iteration s.sampled := by
  obtain ⟨hsig, hrun⟩ := h
  simp [step, schedulerStep, hsig, hrun]

theorem step_of_instrStep_next (h : s.iterates) (hu : instrStep s.begun = .next u) : step s = .next u.countInstr := by
  rw [step_of_iterates h, iteration, show instrStep s.sampled.applyKeys = .next u from hu]

theorem step_of_instrStep_fault {c : Fault} (h : s.iterates) (hc : instrStep s.begun = .fault c) :
    step s = .next (s.begun.takeFault c) := by
  rw [step_of_iterates h, iteration, show instrStep s.sampled.applyKeys = .fault c from hc]
  rfl

theorem instrStep_of_decodeWord_ok {w : Word} {i : Instr} (hf : s.fetch = .ok w) (hd : decodeWord w = .ok i) :
    instrStep s = exec i s := by
  simp [instrStep, hf, hd]

/-- Settles O6: the word is fetched from the state the instruction works on, and exec answers on the same. -/
theorem stepRunsTheDecodedInstruction : Obligations.StepRunsTheDecodedInstruction := by
  intro s w i hs hf hd
  rw [step_of_iterates hs, iteration,
    show instrStep s.sampled.applyKeys = exec i s.begun from instrStep_of_decodeWord_ok (s.fetch_begun.trans hf) hd]
  rfl

/-- Settles O8: the step takes the fatal condition, which sets HALT and keeps the parameters and the image. -/
theorem fatalConditionHalts : Obligations.FatalConditionHalts := fun s c hs hc =>
  ⟨_, step_of_instrStep_fault hs hc, by simp [State.begun]⟩

/-! ### What follows a completed instruction -/

/-- A completed instruction step is a completed instruction. -/
theorem exec_of_instrStep_next (h : instrStep s = .next t) : ∃ i, exec i s = .next t := by
  rcases instrStep_cases s with ⟨c, -, hc⟩ | ⟨w, r, -, -, hr⟩ | ⟨w, i, -, -, hi⟩
  · exact nomatch hc.symm.trans h
  · exact nomatch hr.symm.trans h
  · exact ⟨i, hi.symm.trans h⟩

/-- The pieces no instruction writes (R10): the scheduler's own, the parameters and the host's inputs and outputs. -/
theorem not_mem_mayWrite (i : Instr) {p : Piece}
    (hp : p ∈ [Piece.keys, .icount, .halt, .cfg, .image, .keysIn, .hostCtl, .out]) : p ∉ mayWrite i := by
  revert p
  unfold mayWrite
  split <;> decide

theorem same_of_instrStep_next (h : instrStep s = .next t) {p : Piece}
    (hp : p ∈ [Piece.keys, .icount, .halt, .cfg, .image, .keysIn, .hostCtl, .out]) : p.same s t := by
  obtain ⟨i, hi⟩ := exec_of_instrStep_next h
  exact instructionsWriteOnlyTheirPieces i s t hi p (not_mem_mayWrite i hp)

/-- After the instruction of an iteration ICOUNT and the parameters are as before the step, and no event is out. -/
theorem counters_of_instrStep_begun (h : instrStep s.begun = .next u) :
    u.icount = s.icount ∧ u.cfg = s.cfg ∧ u.out = [] := by
  have hicount : u.icount = s.begun.icount := same_of_instrStep_next h (p := .icount) (by decide)
  have hcfg : u.cfg = s.begun.cfg := same_of_instrStep_next h (p := .cfg) (by decide)
  have hout : u.out = s.begun.out := same_of_instrStep_next h (p := .out) (by decide)
  exact ⟨by simp [hicount, State.begun], by simp [hcfg, State.begun], by simp [hout, State.begun]⟩

theorem State.unchangedBut_countInstr (s : State) :
    UnchangedBut [.icount, .dt, .st, .dirty, .out] s s.countInstr := by
  intro p hp
  cases p with
  | icount | dt | st | dirty | out => simp at hp
  | _ => simp [Piece.same]

theorem State.countInstr_of_tick (h : s.icount + 1 = s.cfg.divisor) :
    s.countInstr = ({ s with icount := 0 } : State).timerTick.renderTick := if_pos h

theorem State.countInstr_of_no_tick (h : s.icount + 1 ≠ s.cfg.divisor) :
    s.countInstr = { s with icount := s.icount + 1 } := if_neg h

/-- Settles O10: the count of the completed instruction decides whether the timers tick. -/
theorem timersTickEveryDivisorInstructions : Obligations.TimersTickEveryDivisorInstructions := by
  intro s u hs hu
  obtain ⟨hicount, hcfg, -⟩ := counters_of_instrStep_begun hu
  refine ⟨_, step_of_instrStep_next hs hu, fun htick => ?tick, fun hno => ?noTick, u.unchangedBut_countInstr⟩
  case tick =>
    rw [State.countInstr_of_tick (by rw [hicount, hcfg, htick])]
    simp [countDown_toNat]
  case noTick =>
    rw [State.countInstr_of_no_tick (by rwa [hicount, hcfg])]
    simp [hicount]

/-- Settles O11: the tick emits the cue, the render signal follows it and clears DIRTY. -/
theorem renderOnlyAtATickIfDirty : Obligations.RenderOnlyAtATickIfDirty := by
  intro s u hs hu
  obtain ⟨hicount, hcfg, hout⟩ := counters_of_instrStep_begun hu
  refine ⟨_, step_of_instrStep_next hs hu, u.unchangedBut_countInstr, fun htick => ?tick, fun hno => ?noTick⟩
  case tick =>
    rw [State.countInstr_of_tick (by rw [hicount, hcfg, htick])]
    refine ⟨rfl, ?_⟩
    have hst : u.st = 1 ↔ u.st.toNat = 1 := BitVec.toNat_inj.symm
    simp only [State.renderTick_out, State.timerTick_out, hout, hst]
    rfl
  case noTick =>
    rw [State.countInstr_of_no_tick (by rwa [hicount, hcfg])]
    exact ⟨rfl, hout⟩

/-- Settles O12: of the events of a step, which the tick fixes, one at most is the cue. -/
theorem cueOnlyWhenSoundTimerReachesZero : Obligations.CueOnlyWhenSoundTimerReachesZero := by
  intro s u hs hu
  obtain ⟨t, ht, -, htick, hno⟩ := renderOnlyAtATickIfDirty s u hs hu
  refine ⟨t, ht, ?_⟩
  by_cases h : s.icount + 1 = s.cfg.divisor
  · obtain ⟨-, hout⟩ := htick h
    rw [hout, List.count_append]
    split_ifs <;> simp_all
  · obtain ⟨-, hout⟩ := hno h
    simp [hout, h]

/-- Settles O13, by induction on the ticks: each lowers a timer by one, not below 0. -/
theorem timerReachesZeroAtTheNthTick : Obligations.TimerReachesZeroAtTheNthTick := by
  intro s n
  induction n with
  | zero => exact ⟨rfl, rfl⟩
  | succ n ih =>
    obtain ⟨hdt, hst⟩ := ih
    simp only [State.afterTicks, State.timerTick_dt, State.timerTick_st, countDown_toNat, hdt, hst]
    omega

/-- Settles O14: the instruction acts on the state before the tick, and the tick follows it. -/
theorem timerInstructionsActBeforeTheTick : Obligations.TimerInstructionsActBeforeTheTick := by
  intro s w x hs hf htick
  have tick {u : State} {i : Instr} (hd : decodeWord w = .ok i) (hu : exec i s.begun = .next u) :
      ∃ t, step s = .next t ∧ t.dt.toNat = u.dt.toNat - 1 ∧ t.getV x = u.getV x := by
    have hinstr := (instrStep_of_decodeWord_ok (s.fetch_begun.trans hf) hd).trans hu
    obtain ⟨t, ht, hticked, -, hframe⟩ := timersTickEveryDivisorInstructions s u hs hinstr
    obtain ⟨-, hdt, -⟩ := hticked htick
    exact ⟨t, ht, hdt, hframe .v (by decide) x⟩
  constructor
  · intro hd
    obtain ⟨t, ht, hdt, hv⟩ := tick hd rfl
    exact ⟨t, ht, by simp [hv, State.begun], by simp [hdt, State.begun]⟩
  · intro hd
    obtain ⟨t, ht, hdt, -⟩ := tick hd rfl
    exact ⟨t, ht, by simp [hdt, State.begun]⟩

/-- Settles O15: the input update takes the value, and neither the instruction nor the count touches KEYS. -/
theorem keysChangeOnlyAtTheInputUpdate : Obligations.KeysChangeOnlyAtTheInputUpdate := by
  intro s u hs hu
  have hkeys : u.keys = s.begun.keys := same_of_instrStep_next hu (p := .keys) (by decide)
  have hkeysIn : u.keysIn = s.begun.keysIn := same_of_instrStep_next hu (p := .keysIn) (by decide)
  refine ⟨_, step_of_instrStep_next hs hu, ?_, ?_⟩
  · simp [hkeys, State.begun, State.applyKeys_keys]
  · simp [hkeysIn, State.begun, State.applyKeys_keysIn]

end Sys2Proof.Machine
end

section
/-! The whole step: the host's signals, the reboot, the invariant, and the machine at a jump to itself. -/

namespace Sys2Proof.Machine

variable {s t : State}

/-! ### The host's signals -/

theorem State.unchangedBut_sampled (s : State) : UnchangedBut [.hostCtl, .out] s s.sampled := by
  intro p hp
  cases p with
  | hostCtl | out => simp at hp
  | _ => simp [Piece.same]

theorem State.unchangedBut_quit (s : State) : UnchangedBut [.halt] s s.quit := by
  intro p hp
  cases p with
  | halt => simp at hp
  | v => exact fun r => State.getV_congr rfl r
  | _ => simp [Piece.same]

theorem State.quit_of_not_running (h : s.halt ≠ .running) : s.quit = s := by
  simp [State.quit, h]

/-- Settles O20: quit and pause are all that the step does. -/
theorem hostQuitAndPause : Obligations.HostQuitAndPause := by
  intro s
  constructor
  · intro hsig
    refine ⟨s.sampled.quit, by simp [step, schedulerStep, hsig], ?_, rfl, fun h => ?_, fun h => ?_⟩
    · exact (s.unchangedBut_sampled.append s.sampled.unchangedBut_quit).mono (by simp)
    · simp [h]
    · simp [h]
  · intro hsig
    exact ⟨s.sampled, by simp [step, schedulerStep, hsig], s.unchangedBut_sampled, rfl⟩

/-- Settles O9: a machine that does not run ignores quit and performs no iteration. -/
theorem haltedIsLeftOnlyByReboot : Obligations.HaltedIsLeftOnlyByReboot := by
  intro s t hhalt h
  rcases step_next h with ⟨-, rfl⟩ | ⟨-, rfl⟩ | ⟨hsig, -⟩ | ⟨p, hsig, -⟩ | ⟨-, -, rfl⟩ | ⟨-, hrun, -⟩
  · rw [State.quit_of_not_running (s := s.sampled) hhalt]
    exact .inr (.inr s.unchangedBut_sampled)
  · exact .inr (.inr s.unchangedBut_sampled)
  · exact .inl hsig
  · exact .inr (.inl ⟨p, hsig⟩)
  · exact .inr (.inr s.unchangedBut_sampled)
  · exact absurd hrun hhalt

/-- The instruction step is never refused, so an iteration always has a next state. -/
theorem exists_iteration_next (s : State) : ∃ t, iteration s = .next t := by
  unfold iteration
  cases hi : instrStep s.applyKeys with
  | next u => exact ⟨_, rfl⟩
  | fault c => exact ⟨_, rfl⟩
  | refused r =>
    rcases instrStep_cases s.applyKeys with ⟨c, -, hc⟩ | ⟨w, r, -, -, hr⟩ | ⟨w, i, -, -, he⟩
    · exact nomatch hc.symm.trans hi
    · exact nomatch hr.symm.trans hi
    · exact absurd (he.symm.trans hi) ((noInstructionIsRefused i s.applyKeys).1 r)

/-- Settles O21: only a reboot can be refused, and only for its image. -/
theorem everyStateHasANextStep : Obligations.EveryStateHasANextStep := by
  intro s himage hreload
  cases hsig : s.hostSignal with
  | quit | pause => simp [step, schedulerStep, hsig]
  | reset => simp [step, schedulerStep, hsig, State.reboot, himage]
  | reload p => simp [step, schedulerStep, hsig, State.reboot, hreload p hsig]
  | none =>
    cases hrun : s.halt with
    | running => simpa [step, schedulerStep, hsig, hrun] using exists_iteration_next s.sampled
    | halted c => simp [step, schedulerStep, hsig, hrun]
    | stopped => simp [step, schedulerStep, hsig, hrun]

/-- Settles O22: not the host's signals, not an instruction, and not what follows it. -/
theorem parametersNeverChange : Obligations.ParametersNeverChange := by
  intro s t h
  rcases step_next h with ⟨-, rfl⟩ | ⟨-, rfl⟩ | ⟨-, -, rfl⟩ | ⟨p, -, -, rfl⟩ | ⟨-, -, rfl⟩ | ⟨-, -, hiter⟩
  · rfl
  · rfl
  · rfl
  · rfl
  · rfl
  · rcases iteration_next hiter with ⟨u, hu, rfl⟩ | ⟨c, -, rfl⟩
    · have hcfg : u.cfg = s.sampled.applyKeys.cfg := same_of_instrStep_next hu (p := .cfg) (by decide)
      simp [hcfg]
    · simp

/-! ### Reset and reboot -/

/-- Settles O17: memory is the empty list of differences, and the numbers are in range. -/
theorem resetMeetsInvariant : Obligations.ResetMeetsInvariant :=
  ⟨Memory.wf_nil _, by decide, by decide, by decide⟩

/-- After reset MEM reads as its reset contents at every address. -/
theorem State.memRead_reset {a : Nat} (h : a < 4096) :
    State.reset.memRead a = .ok (blankByte State.reset.cfg.font a) := State.memRead_ok h

/-- Settles O18: the registers are those of the reset state, memory is the font and zeros. -/
theorem resetState : Obligations.ResetState := by
  refine ⟨fun r => ?_, rfl, rfl, rfl, rfl, rfl, fun a ha => ?font, fun a hle hlt => ?rest, fun x y => ?_, rfl, rfl,
    fun k => ?_, fun k => ?_, rfl⟩
  case font => rw [State.memRead_reset (by omega), blankByte, dif_pos ha]
  case rest => rw [State.memRead_reset hlt, blankByte, dif_neg (Nat.not_lt.mpr hle)]
  all_goals simp [State.getV, State.pixel, State.reset]

theorem step_of_reboot {p : List Byte} (h : s.hostSignal = .reload p ∨ (s.hostSignal = .reset ∧ p = s.image)) :
    step s = s.sampled.reboot p := by
  rcases h with hsig | ⟨hsig, rfl⟩ <;> simp [step, schedulerStep, hsig]

/-- The image is stored from 0x200 on, as FX55 would store it with I there (R202). -/
theorem State.memRead_loadProgram_eq (s : State) (p : List Byte) (a : Nat) :
    (s.loadProgram p).memRead a = ((s.setI 0x200).storedFromI p).memRead a := rfl

theorem State.memRead_loadProgram {p : List Byte} {k : Nat} (hk : k < p.length) (hp : p.length ≤ 3584) :
    (s.loadProgram p).memRead (0x200 + k) = .ok p[k] :=
  (s.memRead_loadProgram_eq p _).trans
    ((s.setI 0x200).memRead_storedFromI (List.getElem?_eq_getElem hk) (show 0x200 + k < 4096 by omega))

theorem State.memRead_loadProgram_outside {p : List Byte} {a : Nat} (h : a < 0x200 ∨ 0x200 + p.length ≤ a) :
    (s.loadProgram p).memRead a = s.memRead a :=
  (s.memRead_loadProgram_eq p a).trans ((s.setI 0x200).memRead_storedFromI_outside p h)

/-- Settles O19: the registers are set as reset sets them, and the image is copied over the memory that is kept. -/
theorem hostRebootReinitialisesAllButMemory : Obligations.HostRebootReinitialisesAllButMemory := by
  intro s p hsig
  rw [step_of_reboot hsig]
  obtain ⟨hv, hi, hpc, hsp, hdt, hst, -, -, hdisp, hdirty, hicount, hkeys, hstack, hhalt⟩ := resetState
  constructor
  · intro hp
    exact ⟨s.sampled.reinit.loadProgram p, if_pos hp, hv, hi, hpc, hsp, hstack, hdt, hst, hdisp, hdirty, hkeys,
      hicount, hhalt, rfl, rfl, rfl, fun k hk => State.memRead_loadProgram hk hp,
      fun a ha => State.memRead_loadProgram_outside ha⟩
  · intro hp
    exact if_neg (Nat.not_le.mpr hp)

/-! ### The invariant -/

theorem State.Inv.congr (h : s.Inv) (hmem : t.mem = s.mem) (hcfg : t.cfg = s.cfg) (hicount : t.icount = s.icount)
    (himage : t.image = s.image) : t.Inv := by
  unfold State.Inv
  rw [hmem, hcfg, hicount, himage]
  exact h

/-- An instruction leaves MEM as it is or stores bytes from I on where they fit. -/
theorem exec_next_mem {i : Instr} (h : exec i s = .next t) :
    t.mem = s.mem ∨ ∃ us, s.i.toNat + us.length ≤ 4096 ∧ t.mem = (s.storedFromI us).mem := by
  cases i with
  | ldB x =>
    obtain ⟨hfit, rfl⟩ := exec_ldB_next h
    exact .inr ⟨decimalDigits (s.getV x), hfit, rfl⟩
  | store x =>
    obtain ⟨hfit, rfl⟩ := exec_store_next h
    exact .inr ⟨_, by simpa using hfit, rfl⟩
  | load x => obtain ⟨-, rfl⟩ := exec_load_next h; exact .inl rfl
  | drw x y n => obtain ⟨-, rfl⟩ := exec_drw_next h; exact .inl rfl
  | skp x => obtain ⟨c, rfl⟩ := exec_skp_next h; exact .inl rfl
  | sknp x => obtain ⟨c, rfl⟩ := exec_sknp_next h; exact .inl rfl
  | ldVxK x => obtain rfl | ⟨b, rfl⟩ := exec_ldVxK_next h <;> exact .inl rfl
  | _ => obtain rfl := Host.Outcome.next.inj h; exact .inl (by simp)

theorem inv_of_instrStep_next (hinv : s.Inv) (h : instrStep s = .next t) : t.Inv := by
  have hcfg : t.cfg = s.cfg := same_of_instrStep_next h (p := .cfg) (by decide)
  have hicount : t.icount = s.icount := same_of_instrStep_next h (p := .icount) (by decide)
  have himage : t.image = s.image := same_of_instrStep_next h (p := .image) (by decide)
  obtain ⟨i, hi⟩ := exec_of_instrStep_next h
  rcases exec_next_mem hi with hmem | ⟨us, hfit, hmem⟩
  · exact hinv.congr hmem hcfg hicount himage
  · obtain ⟨hwf, hdiv, hlt, hlen⟩ := hinv
    have hstored : (s.storedFromI us).Inv := ⟨Memory.wf_writeList us hwf (.inr hfit), hdiv, hlt, hlen⟩
    exact hstored.congr hmem hcfg hicount himage

/-- The count returns to 0 where it would reach the divisor (R82). -/
theorem State.Inv.countInstr (h : s.Inv) : s.countInstr.Inv := by
  obtain ⟨hwf, hdiv, hlt, hlen⟩ := h
  rcases s.countInstr_cases with ⟨-, heq⟩ | ⟨hne, heq⟩
  · rw [heq]
    exact ⟨hwf, hdiv, hdiv, hlen⟩
  · rw [heq]
    exact ⟨hwf, hdiv, by simp only; omega, hlen⟩

/-- The values a fatal condition leaves are free within their range (R174). -/
theorem State.Inv.takeFault (h : s.Inv) (c : Fault) : (s.takeFault c).Inv := by
  obtain ⟨-, hdiv, -, hlen⟩ := h
  exact ⟨Memory.wf_ofFun _ _, hdiv, Nat.mod_lt _ hdiv, hlen⟩

theorem State.Inv.loadProgram (h : s.Inv) {p : List Byte} (hp : p.length ≤ 3584) :
    (s.reinit.loadProgram p).Inv := by
  obtain ⟨hwf, hdiv, -, -⟩ := h
  exact ⟨Memory.wf_writeList p hwf (.inr (show 512 + p.length ≤ 4096 by omega)), hdiv, hdiv, hp⟩

theorem State.Inv.applyKeys (h : s.Inv) : s.applyKeys.Inv :=
  h.congr (by simp) (by simp) (by simp) (by simp)

/-- Settles O16: each thing a step can do keeps the invariant. -/
theorem stepKeepsInvariant : Obligations.StepKeepsInvariant := by
  intro s t hinv h
  have hsampled : s.sampled.Inv := hinv
  rcases step_next h with ⟨-, rfl⟩ | ⟨-, rfl⟩ | ⟨-, hp, rfl⟩ | ⟨p, -, hp, rfl⟩ | ⟨-, -, rfl⟩ | ⟨-, -, hiter⟩
  · exact hinv
  · exact hinv
  · exact hsampled.loadProgram hp
  · exact hsampled.loadProgram hp
  · exact hinv
  · rcases iteration_next hiter with ⟨u, hu, rfl⟩ | ⟨c, -, rfl⟩
    · exact (inv_of_instrStep_next hsampled.applyKeys hu).countInstr
    · exact hsampled.applyKeys.takeFault c

/-! ### The end of a run (R220) -/

/-- The word of a jump to an address below 4095 is 0x1000 above the address. -/
theorem decodeWord_jump_to {pc : Word} (h : pc.toNat ≤ 4094) :
    ∃ nnn, decodeWord (0x1000 + pc) = .ok (.jp nnn) ∧ immWord nnn = pc := by
  refine ⟨pc.setWidth 12, ?_, BitVec.eq_of_toNat_eq ?_⟩
  · have hword : encode (.jp (pc.setWidth 12)) = 0x1000 + pc := by
      apply BitVec.eq_of_toNat_eq
      rw [encode, encAddr_toNat, BitVec.toNat_add, BitVec.toNat_setWidth]
      simp only [BitVec.ofNat_eq_ofNat, BitVec.toNat_ofNat]
      omega
    rw [← hword]
    exact decodeOfEncodeIsIdentity _ rfl
  · rw [immWord_toNat, BitVec.toNat_setWidth]
    omega

/-- Settles O37: the jump writes to PC what is there, so the iteration leaves the input update, the count and the
tick. -/
theorem selfJumpChangesOnlySchedulerState : Obligations.SelfJumpChangesOnlySchedulerState := by
  intro s ⟨hrun, hpc, hfetch⟩ hsig
  obtain ⟨nnn, hd, htarget⟩ := decodeWord_jump_to hpc
  have hstay : s.begun.setPc (immWord nnn) = s.begun := by
    rw [htarget, show s.pc = s.begun.pc by simp [State.begun]]
    rfl
  have hinstr : instrStep s.begun = .next s.begun := by
    rw [instrStep_of_decodeWord_ok (s.fetch_begun.trans hfetch) hd, exec_jp, hstay]
  refine ⟨_, step_of_instrStep_next ⟨hsig, hrun⟩ hinstr, ⟨?halt, ?pc, ?fetch⟩, ?frame⟩
  case halt => simpa [State.begun] using hrun
  case pc => simpa [State.begun] using hpc
  case fetch =>
    rw [State.fetch_congr (s := s.begun) (by simp) (by simp) (by simp), s.fetch_begun, hfetch]
    simp [State.begun]
  case frame => exact (s.unchangedBut_begun.append s.begun.unchangedBut_countInstr).mono (by simp)

end Sys2Proof.Machine
end

section
/-! Control transfer, the skips and the key instructions (spec/41_control_flow.md, 42_skips.md, 46_keys_timers.md). -/

namespace Sys2Proof.Machine

/-! ### SYS, CALL and RET -/

/-- Settles O31: the advance is all of it. -/
theorem sysOnlyAdvances : Obligations.SysOnlyAdvances := fun _ s =>
  ⟨s.advance 2, rfl, rfl, s.unchangedBut_setPc _⟩

theorem exec_call (nnn : Imm12) (s : State) : exec (.call nnn) s = .next (s.push.setPc (immWord nnn)) := rfl

theorem exec_ret (s : State) : exec .ret s = .next s.pop := rfl

/-- Settles O33: the push has room or does nothing, and the jump follows. -/
theorem callPushesItsOwnAddress : Obligations.CallPushesItsOwnAddress := by
  intro nnn s
  refine ⟨_, exec_call nnn s, immWord_toNat nnn, fun hlt => ?room, fun hfull => ?full, ?frame⟩
  case room =>
    rcases s.push_cases with ⟨hroom, hsp, hstack⟩ | ⟨hfull, -⟩
    · refine ⟨hsp, fun k => ?_⟩
      simp [hstack, Vector.getElem_set, Fin.ext_iff, eq_comm]
    · omega
  case full =>
    rcases s.push_cases with ⟨hlt, -⟩ | ⟨-, hpush⟩
    · omega
    · simp [hpush]
  case frame => exact (s.unchangedBut_push.append (s.push.unchangedBut_setPc _)).mono (by simp)

/-- Settles O34: the pop takes the slot below SP, or only advances. -/
theorem returnPopsAndAdvances : Obligations.ReturnPopsAndAdvances := by
  intro s
  refine ⟨_, exec_ret s, s.unchangedBut_pop, fun k hk => ?held, fun hempty => ?empty⟩
  case held =>
    rcases s.pop_cases with ⟨hpos, hsp, hpc⟩ | ⟨hempty, -⟩
    · exact ⟨Fin.ext (by omega), by simp [hpc, hk]⟩
    · omega
  case empty =>
    rcases s.pop_cases with ⟨hheld, -⟩ | ⟨-, hpop⟩
    · omega
    · simp [hpop]

/-- Settles O35: the RET pops the slot the CALL pushed. -/
theorem callThenReturnRoundTrip : Obligations.CallThenReturnRoundTrip := by
  intro nnn s hlt
  obtain ⟨t, ht, -, hroom, -, htframe⟩ := callPushesItsOwnAddress nnn s
  obtain ⟨u, hu, huframe, hheld, -⟩ := returnPopsAndAdvances t
  obtain ⟨htsp, htstack⟩ := hroom hlt
  obtain ⟨husp, hupc⟩ := hheld s.sp htsp
  refine ⟨t, u, ht, hu, by simpa [htstack] using hupc, husp, fun p hp => ?_⟩
  by_cases hps : p = .sp
  · subst hps; exact husp
  · exact (htframe.append huframe) p (by simp_all)

/-! ### Skips -/

/-- A skip advances PC by 4 where its condition holds and by 2 where it does not (R114). -/
theorem State.skipIf_spec (s : State) {c : Bool} {p : Prop} [Decidable p] (h : c = true ↔ p) :
    (s.skipIf c).pc = s.pc + (if p then 4 else 2) ∧ UnchangedBut [.pc] s (s.skipIf c) := by
  refine ⟨?_, s.unchangedBut_skipIf c⟩
  simp [h]

/-- Settles O36: each skip tests what its condition says. -/
theorem skipsCompareAndAdvance : Obligations.SkipsCompareAndAdvance := fun _ _ _ _ s =>
  ⟨⟨_, rfl, s.skipIf_spec beq_iff_eq⟩, ⟨_, rfl, s.skipIf_spec bne_iff_ne⟩, ⟨_, rfl, s.skipIf_spec beq_iff_eq⟩,
    ⟨_, rfl, s.skipIf_spec bne_iff_ne⟩⟩

/-- Settles O54: the key skips test the latch, once the key number is in range. -/
theorem keySkipsFollowTheLatch : Obligations.KeySkipsFollowTheLatch := by
  intro x s
  refine ⟨fun k hk => ⟨?skp, ?sknp⟩, fun h => ⟨exec_skp_of_gt h, exec_sknp_of_gt h⟩⟩
  case skp => exact ⟨_, exec_skp_of_eq hk, s.skipIf_spec Iff.rfl⟩
  case sknp =>
    obtain ⟨hpc, hframe⟩ := s.skipIf_spec (c := !s.keys[k]) (p := ¬ s.keys[k] = true) (by simp)
    exact ⟨_, exec_sknp_of_eq hk, by rw [hpc, ite_not], hframe⟩

/-! ### The key wait and the timers -/

/-- Settles O55: the key scan finds the least key down, or none. -/
theorem keyWaitTakesTheLeastKey : Obligations.KeyWaitTakesTheLeastKey := by
  intro x s
  refine ⟨fun k hk hleast => ?taken, fun hnone => exec_ldVxK_of_none (State.firstKey_eq_none.mpr hnone)⟩
  refine ⟨_, exec_ldVxK_of_some (State.firstKey_eq_some.mpr ⟨hk, hleast⟩), ?_, s.setV_advance_frame x _⟩
  have hlt : k.val < 256 := by omega
  simp [hlt]

/-- Settles O56: each is one write, to VX, DT or ST, and the advance. -/
theorem timerInstructionsMoveTheirByte : Obligations.TimerInstructionsMoveTheirByte := by
  intro x s
  refine ⟨?ldVxDt, ?ldDtVx, ?ldStVx⟩
  case ldVxDt => exact ⟨_, rfl, by simp, s.setV_advance_frame x s.dt⟩
  case ldDtVx => exact ⟨_, rfl, rfl, rfl, (s.unchangedBut_setDt _).append_advance 2⟩
  case ldStVx => exact ⟨_, rfl, rfl, rfl, (s.unchangedBut_setSt _).append_advance 2⟩

end Sys2Proof.Machine
end

section
/-! Logic, shifts and the random byte (spec/43_register_alu.md), and index arithmetic (spec/44_index_memory.md). -/

namespace Sys2Proof.Machine

/-! ### Logic and shifts -/

/-- Settles O39: the operation is bitwise on the old values, and VX is the only register written. -/
theorem logicIsBitwiseAndSetsNoFlag : Obligations.LogicIsBitwiseAndSetsNoFlag := by
  intro x y s
  have write (b : Byte) := s.setV_advance_frame x b
  refine ⟨?or, ?and, ?xor⟩
  case or =>
    obtain ⟨hpc, hothers, hframe⟩ := write (s.getV x ||| s.getV y)
    exact ⟨_, rfl, hpc, fun b _ => by simp, hothers, hframe⟩
  case and =>
    obtain ⟨hpc, hothers, hframe⟩ := write (s.getV x &&& s.getV y)
    exact ⟨_, rfl, hpc, fun b _ => by simp, hothers, hframe⟩
  case xor =>
    obtain ⟨hpc, hothers, hframe⟩ := write (s.getV x ^^^ s.getV y)
    exact ⟨_, rfl, hpc, fun b _ => by simp, hothers, hframe⟩

theorem lowBitFlag_toNat (a : Byte) : (lowBitFlag a).toNat = a.toNat % 2 := by
  rw [lowBitFlag, BitVec.toNat_ofNat]
  omega

theorem highBitFlag_toNat (a : Byte) : (highBitFlag a).toNat = a.toNat / 128 := by
  rw [highBitFlag, BitVec.toNat_ofNat]
  omega

theorem byte_shiftRight_one_toNat (a : Byte) : (a >>> 1).toNat = a.toNat / 2 := by
  rw [BitVec.toNat_ushiftRight, Nat.shiftRight_eq_div_pow, Nat.pow_one]

theorem byte_shiftLeft_one_toNat (a : Byte) : (a <<< 1).toNat = 2 * a.toNat % 256 := by
  rw [BitVec.toNat_shiftLeft, Nat.shiftLeft_eq, Nat.pow_one, Nat.mul_comm]

/-- Settles O42: result and flag are the two parts of the shifted value, and VF is written last. -/
theorem shiftsMoveOneBitIntoFlag : Obligations.ShiftsMoveOneBitIntoFlag := fun x _ s =>
  ⟨⟨_, rfl, s.setWithFlag_advance_spec x (lowBitFlag_toNat _) (byte_shiftRight_one_toNat _)⟩,
    ⟨_, rfl, s.setWithFlag_advance_spec x (highBitFlag_toNat _) (byte_shiftLeft_one_toNat _)⟩⟩

/-! ### The random byte -/

theorem exec_rnd (x : Reg) (nn : Byte) (s : State) :
    exec (.rnd x nn) s = .next ((s.nextRand.setV x (s.randByte &&& nn)).advance 2) := rfl

/-- Settles O43: the byte is the head of the queue, or a free one, and the draw uses it up. -/
theorem randomByteIsMasked : Obligations.RandomByteIsMasked := by
  intro x nn s
  refine ⟨_, s.randByte, exec_rnd x nn s, by simp, ?masked, fun b bs hq => ?queued, fun hq => ?free, by simp,
    fun q hq => by simp [hq], ?frame⟩
  case masked => simp [BitVec.and_assoc]
  case queued => simp [State.randByte, State.nextRand, hq]
  case free => simp [State.nextRand, hq]
  case frame =>
    exact ((s.unchangedBut_nextRand.append (s.nextRand.unchangedBut_setV x _)).append_advance 2).mono (by simp)

/-! ### Index arithmetic -/

theorem exec_addI (x : Reg) (s : State) :
    exec (.addI x) s = .next ((s.setI (s.indexSum (s.getV x))).advance 2) := rfl

theorem exec_ldF (x : Reg) (s : State) : exec (.ldF x) s = .next ((s.setI (glyphAddr (s.getV x))).advance 2) := rfl

/-- Either modulus divides 65536, so the sum fits in I (R141). -/
theorem State.indexSum_toNat (s : State) (b : Byte) :
    (s.indexSum b).toNat = (s.i.toNat + b.toNat) % s.cfg.addIModulus.toNat := by
  rw [State.indexSum, BitVec.toNat_ofNat]
  cases s.cfg.addIModulus <;> simp only [AddIModulus.toNat] <;> omega

theorem glyphAddr_toNat (b : Byte) : (glyphAddr b).toNat = 5 * b.toNat := by
  rw [glyphAddr, BitVec.toNat_ofNat]
  omega

/-- Settles O45: I takes the sum modulo the parameter, or the glyph's address. -/
theorem indexArithmetic : Obligations.IndexArithmetic := by
  intro x s
  constructor
  · refine ⟨_, exec_addI x s, rfl, (s.unchangedBut_setI _).append_advance 2, fun hfull => ?_, fun hmem => ?_⟩
    · simp [State.indexSum_toNat, hfull, AddIModulus.toNat]
    · simp [State.indexSum_toNat, hmem, AddIModulus.toNat]
  · exact ⟨_, exec_ldF x s, rfl, glyphAddr_toNat _, (s.unchangedBut_setI _).append_advance 2⟩

end Sys2Proof.Machine
end

section
/-! FX55 and FX65 (spec/44_index_memory.md R144, R145), and a stored word as the next fetch (spec/20_memory.md R51). -/

namespace Sys2Proof.Machine

variable {s : State} {x r : Reg}

/-! ### The register range -/

theorem exec_store_of_le (h : s.i.toNat + x.toNat ≤ 4095) : exec (.store x) s =
    .next (((s.storedFromI (s.regRange x)).setI (s.indexAfterRange x)).advance 2) :=
  (exec_store s x).trans (if_pos (show s.i.toNat + (x.toNat + 1) ≤ 4096 by omega))

theorem exec_store_of_gt (h : 4095 < s.i.toNat + x.toNat) :
    exec (.store x) s = .fault (.memoryOutOfRange (max s.i.toNat 4096)) :=
  (exec_store s x).trans (if_neg (show ¬ s.i.toNat + (x.toNat + 1) ≤ 4096 by omega))

theorem exec_load_of_le (h : s.i.toNat + x.toNat ≤ 4095) : exec (.load x) s =
    .next (((s.setAllV (s.withRange (s.bytesFrom s.i.toNat (rangeCount x)))).setI (s.indexAfterRange x)).advance 2) :=
  (exec_load s x).trans (if_pos (show s.i.toNat + (x.toNat + 1) ≤ 4096 by omega))

theorem exec_load_of_gt (h : 4095 < s.i.toNat + x.toNat) :
    exec (.load x) s = .fault (.memoryOutOfRange (max s.i.toNat 4096)) :=
  (exec_load s x).trans (if_neg (show ¬ s.i.toNat + (x.toNat + 1) ≤ 4096 by omega))

theorem State.regRange_getElem?_of_le (h : r.toNat ≤ x.toNat) : (s.regRange x)[r.toNat]? = some (s.getV r) := by
  rw [State.regRange_getElem?, if_pos h, State.getV]
  exact Vector.getElem?_eq_getElem r.isLt

theorem State.indexAfterRange_of_false (h : s.cfg.loadStoreIncrementsI = false) : s.indexAfterRange x = s.i := by
  simp [State.indexAfterRange, h]

theorem State.indexAfterRange_of_true (h : s.cfg.loadStoreIncrementsI = true) :
    (s.indexAfterRange x).toNat = (s.i.toNat + x.toNat + 1) % 65536 := by
  simp [State.indexAfterRange, h, rangeCount, Nat.add_assoc]

/-! ### The statements -/

/-- Settles O47: byte r of what is stored from I on is Vr. -/
theorem storeWritesTheRegisterRange : Obligations.StoreWritesTheRegisterRange := by
  intro x s
  refine ⟨fun h => ⟨_, exec_store_of_le h, fun r hr => ?stored, fun a ha => ?outside, State.indexAfterRange_of_false,
    State.indexAfterRange_of_true, rfl, ?frame⟩, exec_store_of_gt⟩
  case stored => exact s.memRead_storedFromI (State.regRange_getElem?_of_le hr) (show _ < 4096 by omega)
  case outside =>
    exact s.memRead_storedFromI_outside _ (by simp only [State.regRange_length, rangeCount]; omega)
  case frame =>
    exact ((s.unchangedBut_storedFromI _).append (State.unchangedBut_setI _ _)).append_advance 2

/-- Settles O48: register r takes byte r of those read from I on. -/
theorem loadReadsTheRegisterRange : Obligations.LoadReadsTheRegisterRange := by
  intro x s
  refine ⟨fun h => ⟨_, exec_load_of_le h, fun r hr => ?loaded, fun r hr => ?above, State.indexAfterRange_of_false,
    State.indexAfterRange_of_true, rfl, ?frame⟩, exec_load_of_gt⟩
  case loaded =>
    have hbyte : (s.bytesFrom s.i.toNat (rangeCount x))[r.toNat]? =
        some (Memory.read s.cfg.font s.mem (s.i.toNat + r.toNat)) :=
      (s.bytesFrom_getElem? _ _ _).trans (if_pos (Nat.lt_succ_of_le hr))
    rw [State.memRead_ok (show s.i.toNat + r.toNat < 4096 by omega), State.getV_advance, State.getV_setI,
      State.getV_withRange, hbyte]
    rfl
  case above => simp [rangeCount, Nat.not_lt.mpr hr]
  case frame =>
    exact ((s.unchangedBut_setAllV _).append (State.unchangedBut_setI _ _)).append_advance 2

/-- Settles O49: FX65 reads at I + r what FX55 has stored there. -/
theorem storeThenLoadRestoresRegisters : Obligations.StoreThenLoadRestoresRegisters := by
  intro x s junk h hstays
  obtain ⟨t, ht, hstored, -, hi, -⟩ := (storeWritesTheRegisterRange x s).1 h
  have hti : t.i = s.i := hi hstays
  obtain ⟨u, hu, hloaded, -⟩ := (loadReadsTheRegisterRange x (t.setAllV junk)).1 (by simpa [hti] using h)
  refine ⟨t, u, ht, hu, fun r hr => ?_⟩
  have hread : t.memRead (s.i.toNat + r.toNat) = .ok (u.getV r) := by simpa [hti] using hloaded r hr
  exact Except.ok.inj (hread.symm.trans (hstored r hr))

theorem State.fetch_of_memRead {hi lo : Byte} (hhi : s.memRead s.pc.toNat = .ok hi)
    (hlo : s.memRead (s.pc.toNat + 1) = .ok lo) : s.fetch = .ok (wordOfBytes hi lo) := by
  simp [State.fetch, hhi, hlo]

/-- Settles O50: the two bytes the fetch reads are Vr and the register after it. -/
theorem storedBytesAreFetchedNext : Obligations.StoredBytesAreFetchedNext := by
  intro x r q s h hrq hqx hpc
  obtain ⟨t, ht, hstored, -, -, -, htpc, -⟩ := (storeWritesTheRegisterRange x s).1 h
  have hat : t.pc.toNat = s.i.toNat + r.toNat := by rw [htpc, hpc]
  refine ⟨t, _, ht, State.fetch_of_memRead ?hi ?lo, wordOfBytes_toNat _ _⟩
  case hi => rw [hat, hstored r (by omega)]
  case lo => rw [hat, Nat.add_assoc, hrq, hstored q hqx]

end Sys2Proof.Machine
end

section
/-! DXYN (spec/45_display.md R151 to R153): the sprite's pixels, what a draw does to each, and its statements. -/

namespace Sys2Proof.Machine

variable {s : State} {x y : Reg} {n : Nibble}

theorem exec_drw_of_fits (h : n.toNat = 0 ∨ s.i.toNat + n.toNat ≤ 4096) :
    exec (.drw x y n) s = .next ((s.drawSprite x y n).advance 2) :=
  (exec_drw s x y n).trans (if_pos h)

/-! ### The sprite's pixels -/

/-- Whether the sprite DXYN draws has a bit at a pixel of the grid, as the drawing code lays it out. -/
def State.spritePixel (s : State) (x y : Reg) (n : Nibble) (px : Fin 64) (py : Fin 32) : Bool :=
  (spriteAt (s.spriteBytes n) (s.getV x) (s.getV y) py.val).getMsbD px.val

/-- The drawing code lays out the bits of the bytes in memory (R151, R152). -/
theorem spriteBit_iff (h : n.toNat = 0 ∨ s.i.toNat + n.toNat ≤ 4096) (px : Fin 64) (py : Fin 32) :
    spriteBit s n.toNat (s.getV x).toNat (s.getV y).toNat px py ↔ s.spritePixel x y n px py = true := by
  have read_ok {r : Nat} (hr : r < n.toNat) :
      s.memRead (s.i.toNat + r) = .ok (Memory.read s.cfg.font s.mem (s.i.toNat + r)) :=
    State.memRead_ok (show _ < 4096 by omega)
  rw [State.spritePixel, spriteAt_getMsbD _ _ _ _ px.isLt, State.spriteBytes, State.bytesFrom_getElem?]
  simp only [Bool.and_eq_true, decide_eq_true_eq]
  constructor
  · rintro ⟨r, col, b, hr, hcol, hpx, hpy, hb, hbit⟩
    obtain rfl : Memory.read s.cfg.font s.mem (s.i.toNat + r) = b := Except.ok.inj ((read_ok hr).symm.trans hb)
    have hrow : py.val - (s.getV y).toNat = r := by omega
    have hcolumn : px.val - (s.getV x).toNat = col := by omega
    refine ⟨⟨by omega, by omega⟩, ?_⟩
    rw [hrow, hcolumn, if_pos hr]
    simpa [BitVec.getMsbD, hcol] using hbit
  · rintro ⟨⟨hpy, hpx⟩, hbit⟩
    split at hbit
    case isFalse => simp at hbit
    case isTrue hr =>
      have hcol : px.val - (s.getV x).toNat < 8 := BitVec.lt_of_getMsbD hbit
      refine ⟨_, _, _, hr, hcol, by omega, by omega, read_ok hr, ?_⟩
      simpa [BitVec.getMsbD, hcol] using hbit

/-! ### What a draw does -/

theorem State.pixel_drawSprite (px : Fin 64) (py : Fin 32) :
    (s.drawSprite x y n).pixel px py = (s.pixel px py ^^ s.spritePixel x y n px py) :=
  drawn_getMsbD _ _ _ _ px py

theorem State.getV_drawSprite {r : Reg} (hr : r ≠ regF) : (s.drawSprite x y n).getV r = s.getV r := by
  simp [State.drawSprite, hr]

/-- VF after a draw is 1 where a set pixel is flipped, and 0 where none is (R151). -/
theorem State.getV_regF_drawSprite_cases (s : State) (x y : Reg) (n : Nibble) :
    ((s.drawSprite x y n).getV regF = 1 ∧
      ∃ px py, s.spritePixel x y n px py = true ∧ s.pixel px py = true) ∨
    ((s.drawSprite x y n).getV regF = 0 ∧
      ∀ px py, s.spritePixel x y n px py = true → s.pixel px py = false) := by
  have hflag : (s.drawSprite x y n).getV regF =
      collisionFlag s.disp (s.spriteBytes n) (s.getV x) (s.getV y) := by simp [State.drawSprite]
  rw [hflag]
  refine (collisionFlag_cases _ _ _ _).imp (And.imp_right ?hit) (And.imp_right ?clear)
  case hit => exact fun ⟨py, px, hset, hbit⟩ => ⟨px, py, hbit, hset⟩
  case clear =>
    exact fun hno px py hbit => Bool.eq_false_iff.mpr fun hset => hno ⟨py, px, hset, hbit⟩

/-! ### The statements -/

/-- Settles O52: a draw flips the pixels of the sprite as memory has it, and VF says whether one of them was set. -/
theorem drawFlipsTheSpritesPixels : Obligations.DrawFlipsTheSpritesPixels := by
  intro x y n s
  refine ⟨fun h => ?drawn, fun hn hgt => ?fault⟩
  case fault => exact (exec_drw s x y n).trans (if_neg (by omega))
  case drawn =>
    simp only [spriteBit_iff h]
    refine ⟨_, exec_drw_of_fits h, fun px py hbit => ?flipped, fun px py hbit => ?kept,
      fun ⟨px, py, hbit, hset⟩ => ?hit, fun hclear => ?clear, rfl, rfl, fun r hr => State.getV_drawSprite hr, ?frame⟩
    case flipped => exact (State.pixel_drawSprite px py).trans (by simp [hbit])
    case kept => exact (State.pixel_drawSprite px py).trans (by simp [hbit])
    case hit =>
      rcases s.getV_regF_drawSprite_cases x y n with ⟨hone, -⟩ | ⟨-, hno⟩
      · exact hone
      · exact nomatch (hno px py hbit).symm.trans hset
    case clear =>
      rcases s.getV_regF_drawSprite_cases x y n with ⟨-, px, py, hbit, hset⟩ | ⟨hzero, -⟩
      · exact nomatch (hclear px py hbit).symm.trans hset
      · exact hzero
    case frame =>
      exact ((s.unchangedBut_drawSprite x y n).append_advance 2).mono (by simp)

/-- Settles O53: the second draw is of the same sprite, and flipping a pixel twice restores it. -/
theorem drawingTwiceRestoresTheDisplay : Obligations.DrawingTwiceRestoresTheDisplay := by
  intro x y n s hx hy h
  refine ⟨_, _, exec_drw_of_fits h, exec_drw_of_fits (s := (s.drawSprite x y n).advance 2) h, fun px py => ?_⟩
  have hsame : ((s.drawSprite x y n).advance 2).spritePixel x y n px py = s.spritePixel x y n px py := by
    rw [State.spritePixel, State.spritePixel, State.getV_advance, State.getV_advance, State.getV_drawSprite hx,
      State.getV_drawSprite hy]
    rfl
  calc (((s.drawSprite x y n).advance 2).drawSprite x y n).pixel px py
    _ = ((s.drawSprite x y n).pixel px py ^^ s.spritePixel x y n px py) := by rw [State.pixel_drawSprite, hsame]; rfl
    _ = s.pixel px py := by simp [State.pixel_drawSprite]

end Sys2Proof.Machine
end
